-- ==== Sys2Proof/Machine/Params.lean ====
section
/-! DEFINITION. The parameter record of R8 and its values. Every width and every number of R8's table has its one home here:
Word.lean builds the types of the core from the widths, and the definitions that need a number read its field, so that a
corrected literal changes one line. -/

namespace Sys2Proof

/-- The parameter record of R8, one field per row of its table, in its order. The two `OPEN` tables, `HB_TABLE` and
`FW_LAUNCH`, are constants without a body in Config.lean (log 6, log 7). -/
structure Params where
  numLeds : Nat
  patternW : Nat
  totalModes : Nat
  numDefinedModes : Nat
  modeW : Nat
  filterN : Nat
  sampleW : Nat
  curW : Nat
  sumW : Nat
  adcW : Nat
  adcShift : Nat
  debounceMs : Nat
  vuShift : Nat
  centerShift : Nat
  centerMaxPairs : Nat
  spectrumShift : Nat
  waveDiv : Nat
  waveMax : Nat
  knightMs : Nat
  pingpongMs : Nat
  pingpongMinW : Nat
  pingpongMaxW : Nat
  raindropMs : Nat
  waveformMs : Nat
  hbFrames : Nat
  hbFrameMs : Nat
  fwLaunchFrames : Nat
  fwLaunchMs : Nat
  fwExplodeMs : Nat
  fwFadeFrames : Nat
  fwFadeMs : Nat
  fwFadeFirstShift : Nat
  fwBlankMs : Nat
  strobeOnMs : Nat
  strobeOffMs : Nat
  sparkleTrials : Nat
  sparkleMs : Nat
  flashMs : Nat
  /-- The post-render delay of modes 0, 1, 3, 4, 7 and the default branch: `none` is no Delay event (D22). -/
  postRenderMs : Option Nat
  deriving DecidableEq, Repr

namespace Machine

/-- The compiled-in constants of R8. -/
abbrev params : Params :=
  { numLeds := 8, patternW := 8, totalModes := 13, numDefinedModes := 14, modeW := 8, filterN := 16, sampleW := 8,
    curW := 4, sumW := 16, adcW := 10, adcShift := 2, debounceMs := 50, vuShift := 3, centerShift := 4,
    centerMaxPairs := 4, spectrumShift := 5, waveDiv := 32, waveMax := 8, knightMs := 100, pingpongMs := 100,
    pingpongMinW := 1, pingpongMaxW := 4, raindropMs := 100, waveformMs := 50, hbFrames := 24, hbFrameMs := 75,
    fwLaunchFrames := 4, fwLaunchMs := 150, fwExplodeMs := 300, fwFadeFrames := 8, fwFadeMs := 150,
    fwFadeFirstShift := 0, fwBlankMs := 500, strobeOnMs := 50, strobeOffMs := 50, sparkleTrials := 8, sparkleMs := 100,
    flashMs := 5, postRenderMs := none }

end Machine

end Sys2Proof
end

