-- ==== Sys2Proof/Word.lean ====
section
/-! DEFINITION. The word types of the core, each of the width the parameter record gives it (spec/00_scope.md R8, R9, R10),
and its plainest word arithmetic. -/

namespace Sys2Proof

/-- One line level, one button level, one coin (R13). -/
abbrev Bit := BitVec 1

/-- An LED pattern, `PATTERN_W` bits, one per LED (R8, R9). -/
abbrev Pattern := BitVec Machine.params.patternW

/-- A Mode Index, `MODE_W` bits: what MODE holds and DISPATCH decodes (R8, R91). -/
abbrev ModeIndex := BitVec Machine.params.modeW

/-- A sample and a ring-buffer slot, `SAMPLE_W` bits (R8). -/
abbrev Sample := BitVec Machine.params.sampleW

/-- The ring-buffer cursor, `CUR_W` bits (R8, R26). -/
abbrev Cursor := BitVec Machine.params.curW

/-- The running sum, `SUM_W` bits (R8, R27). -/
abbrev RunningSum := BitVec Machine.params.sumW

/-- A raw analog reading, `ADC_W` bits (R8, R93). -/
abbrev Raw := BitVec Machine.params.adcW

/-- A bit index drawn by `RandDraw(8)` (R95). -/
abbrev BitIndex := BitVec 3

/-- `trunc_w(v)` is `v mod 2^w` (R10). -/
def trunc (w v : Nat) : BitVec w := BitVec.ofNat w v

/-- `|a - b|` over the naturals (R11). -/
def absDiff (a b : Nat) : Nat := if a ≤ b then b - a else a - b

end Sys2Proof
end

