-- ==== Sys2Proof/Syntax.lean ====
section
/-! DEFINITION. The operations of the core: one constructor per row of spec/opcode_table.json (R96, R97, R99). -/

namespace Sys2Proof

/-- An operation of the core. The fourteen mode operations and the five rows of DEFAULT are selected by the Mode Index
(R97); RENDER, SAMPLE, FUPDATE and ADVANCE have no selector (R99). A DEFAULT row carries the selector value `m` DISPATCH
read (its row's field `mode` 7:0), which `Instr.wf` keeps inside the row. -/
inductive Instr where
  | off
  | vu
  | knight
  | inverse
  | center
  | pingpong
  | raindrop
  | spectrum
  | waveform
  | heartbeat
  | fireworks
  | strobe
  | sparkle
  | flash
  /-- DEFAULT, row `0000111m`: selectors 14 to 15. -/
  | default14 (m : ModeIndex)
  /-- DEFAULT, row `0001mmmm`: selectors 16 to 31. -/
  | default16 (m : ModeIndex)
  /-- DEFAULT, row `001mmmmm`: selectors 32 to 63. -/
  | default32 (m : ModeIndex)
  /-- DEFAULT, row `01mmmmmm`: selectors 64 to 127. -/
  | default64 (m : ModeIndex)
  /-- DEFAULT, row `1mmmmmmm`: selectors 128 to 255. -/
  | default128 (m : ModeIndex)
  /-- RENDER p, one PAT8 operand (R94, R120). -/
  | render (p : Pattern)
  /-- SAMPLE, no operand (R130). -/
  | sample
  /-- FUPDATE s, one 8-bit sample (R133). -/
  | fupdate (v : Sample)
  /-- ADVANCE, no operand, started by an EDGE (R214). -/
  | advance
  deriving DecidableEq, Repr

end Sys2Proof
end

