-- ==== Sys2Proof/WellFormed.lean ====
section
/-! DEFINITION. Which terms of `Instr` stand for something the core can select: a DEFAULT row's selector matches the row's
match and mask (R97). -/

namespace Sys2Proof

/-- A selector matches a table row: the bits under the mask are the row's match (spec/opcode_table.json). -/
def matchesRow (mask pat m : ModeIndex) : Bool := m &&& mask == pat

/-- Well-formedness of an instruction term. Only the DEFAULT rows have anything to check. -/
def Instr.wf : Instr → Bool
  | .off => true
  | .vu => true
  | .knight => true
  | .inverse => true
  | .center => true
  | .pingpong => true
  | .raindrop => true
  | .spectrum => true
  | .waveform => true
  | .heartbeat => true
  | .fireworks => true
  | .strobe => true
  | .sparkle => true
  | .flash => true
  | .default14 m => matchesRow 0xFE 0x0E m
  | .default16 m => matchesRow 0xF0 0x10 m
  | .default32 m => matchesRow 0xE0 0x20 m
  | .default64 m => matchesRow 0xC0 0x40 m
  | .default128 m => matchesRow 0x80 0x80 m
  | .render _ => true
  | .sample => true
  | .fupdate _ => true
  | .advance => true

/-- The instructions the Mode Index can select (R96: kind `mode`); the others are internal or asynchronous (R99). -/
def Instr.selectable : Instr → Bool
  | .off => true
  | .vu => true
  | .knight => true
  | .inverse => true
  | .center => true
  | .pingpong => true
  | .raindrop => true
  | .spectrum => true
  | .waveform => true
  | .heartbeat => true
  | .fireworks => true
  | .strobe => true
  | .sparkle => true
  | .flash => true
  | .default14 _ => true
  | .default16 _ => true
  | .default32 _ => true
  | .default64 _ => true
  | .default128 _ => true
  | .render _ => false
  | .sample => false
  | .fupdate _ => false
  | .advance => false

end Sys2Proof
end

