-- ==== Sys2Proof/Decode.lean ====
section
/-! DEFINITION. The one decode of the core (R97: DISPATCH decodes the whole 8-bit `mode` field, and every value selects an
operation, R98), on bytes and on the opcode table's words, and after it the encoder. -/

namespace Sys2Proof

/-- Why bytes are not read as an instruction. -/
inductive DecodeError where
  /-- There is no selector byte: nothing to decode. Safe: no instruction is made up. -/
  | noSelector
  deriving DecidableEq, Repr

/-- The default branch on a value that is none of 1, 3, 4 (R97): the five DEFAULT rows by range. -/
def decodeUnmatched (m : ModeIndex) : Instr :=
  if m.toNat < 16 then .default14 m
  else if m.toNat < 32 then .default16 m
  else if m.toNat < 64 then .default32 m
  else if m.toNat < 128 then .default64 m
  else .default128 m

/-- The `NUM_DEFINED_MODES` matched rows of the operation map of R97, modes 0 to 13; a value past them has no row here. -/
def definedMode : Nat → Option Instr
  | 0 => some .off
  | 1 => some .vu
  | 2 => some .knight
  | 3 => some .inverse
  | 4 => some .center
  | 5 => some .pingpong
  | 6 => some .raindrop
  | 7 => some .spectrum
  | 8 => some .waveform
  | 9 => some .heartbeat
  | 10 => some .fireworks
  | 11 => some .strobe
  | 12 => some .sparkle
  | 13 => some .flash
  | _ => none

/-- The operation map of R97, total on the 256 values (R98): a defined mode is its row's operation, any other value goes to the
default branch. -/
def decodeMode (m : ModeIndex) : Instr :=
  if m.toNat < Machine.params.numDefinedModes then (definedMode m.toNat).getD (decodeUnmatched m) else decodeUnmatched m

/-- Decoding of bytes: a selector is one byte (format MODE8, R91); the rest of the bytes is handed back. -/
def decode : List ModeIndex → Except DecodeError (Instr × List ModeIndex)
  | [] => .error .noSelector
  | m :: rest => .ok (decodeMode m, rest)

/-- The bytes of a table word: one selector byte where the row has 8 bits, and no selector for any other width, since no
instruction word of another width exists (R90; log 11). -/
def selectorBytes (nbits w : Nat) : List ModeIndex :=
  if nbits = Machine.params.modeW then [BitVec.ofNat _ w] else []

/-- The instruction the decoder reads from a word of the opcode table (bit 0 least significant, R9). -/
def decodeTableWord (nbits w : Nat) : Option Instr :=
  match decode (selectorBytes nbits w) with
  | .ok (i, _) => some i
  | .error _ => none

/-- The selector bytes of an instruction, from the table of R97; an internal or asynchronous operation has none (R99). -/
def encode : Instr → List ModeIndex
  | .off => [0x00]
  | .vu => [0x01]
  | .knight => [0x02]
  | .inverse => [0x03]
  | .center => [0x04]
  | .pingpong => [0x05]
  | .raindrop => [0x06]
  | .spectrum => [0x07]
  | .waveform => [0x08]
  | .heartbeat => [0x09]
  | .fireworks => [0x0A]
  | .strobe => [0x0B]
  | .sparkle => [0x0C]
  | .flash => [0x0D]
  | .default14 m => [m]
  | .default16 m => [m]
  | .default32 m => [m]
  | .default64 m => [m]
  | .default128 m => [m]
  | .render _ => []
  | .sample => []
  | .fupdate _ => []
  | .advance => []

/-- One row of spec/opcode_table.json that has a match and a mask, with the instruction a selector of that row stands for. -/
structure ModeRow where
  mask : ModeIndex
  pat : ModeIndex
  instr : ModeIndex → Instr

/-- The nineteen selector rows of spec/opcode_table.json, in its order. -/
def modeTable : List ModeRow :=
  [⟨0xFF, 0x00, fun _ => .off⟩, ⟨0xFF, 0x01, fun _ => .vu⟩, ⟨0xFF, 0x02, fun _ => .knight⟩, ⟨0xFF, 0x03, fun _ => .inverse⟩] ++
  [⟨0xFF, 0x04, fun _ => .center⟩, ⟨0xFF, 0x05, fun _ => .pingpong⟩, ⟨0xFF, 0x06, fun _ => .raindrop⟩, ⟨0xFF, 0x07, fun _ => .spectrum⟩] ++
  [⟨0xFF, 0x08, fun _ => .waveform⟩, ⟨0xFF, 0x09, fun _ => .heartbeat⟩, ⟨0xFF, 0x0A, fun _ => .fireworks⟩, ⟨0xFF, 0x0B, fun _ => .strobe⟩] ++
  [⟨0xFF, 0x0C, fun _ => .sparkle⟩, ⟨0xFF, 0x0D, fun _ => .flash⟩, ⟨0xFE, 0x0E, .default14⟩, ⟨0xF0, 0x10, .default16⟩] ++
  [⟨0xE0, 0x20, .default32⟩, ⟨0xC0, 0x40, .default64⟩, ⟨0x80, 0x80, .default128⟩]

/-- The instructions the table's rows give to a selector; R97 says it is exactly one. -/
def tableReadings (m : ModeIndex) : List Instr :=
  (modeTable.filter fun r => matchesRow r.mask r.pat m).map fun r => r.instr m

end Sys2Proof
end

