-- ==== Sys2Proof/Machine/State.lean ====
section
/-! DEFINITION. The state of the core (R20 to R34), the main flow's local values (R215), the inputs the environment has in
store (R42 to R45) and the event trace (R13); the reset state (R50, R240); the reasons a step can stop. Plain data. -/

namespace Sys2Proof.Machine

/-- The three output lines (R40). -/
inductive Line where
  | data
  | clk
  | latch
  deriving DecidableEq, Repr

/-- The two flows of the one core (R74). -/
inductive Flow where
  | main
  | handler
  deriving DecidableEq, Repr

/-- The events the core acts on the outside world through (R13). EDGE is not listed in a trace (R102; log 9). -/
inductive Event where
  /-- `Line(X, b)`. -/
  | line (l : Line) (b : Bit)
  /-- `Delay(n)`: at least `n` milliseconds pass. -/
  | delay (ms : Nat)
  /-- `AdcConvert()` returned `raw`. -/
  | adc (raw : Raw)
  /-- `RandDraw(n)` returned `v`. -/
  | rnd (n v : Nat)
  /-- `BtnLevel()` returned `b`. -/
  | btn (b : Bit)
  deriving DecidableEq, Repr

/-- One event of the trace with the flow that performed it. -/
structure Entry where
  flow : Flow
  ev : Event
  deriving DecidableEq, Repr

/-- `KR_DIR`: `UP` = 0, `DOWN` = 1 (R22). -/
inductive KrDir where
  | up
  | down
  deriving DecidableEq, Repr

/-- `PP_DIR`: `GROW` = 0, `SHRINK` = 1 (R22). -/
inductive PpDir where
  | grow
  | shrink
  deriving DecidableEq, Repr

/-- The fifteen mode operations DISPATCH can select (R30, R96). -/
inductive ModeOp where
  | off
  | vu
  | knight
  | inverse
  | center
  | pingpong
  | raindrop
  | spectrum
  | waveform
  | heartbeat
  | fireworks
  | strobe
  | sparkle
  | flash
  | deflt
  deriving DecidableEq, Repr

/-- `SEQ`, what plays the part of a program counter (R30): at DISPATCH, or in an operation with the index of its next event. -/
inductive Seq where
  | atDispatch
  | running (op : ModeOp) (step : Nat)
  deriving DecidableEq, Repr

/-- The four places of the handler's sequencer (R32). `HACT` = 1 exactly while it is not `idle` (log 10). -/
inductive HandlerPlace where
  | idle
  | firstCheck
  | debounce
  | secondCheck
  deriving DecidableEq, Repr

/-- The pattern rules of the generators: how a local pattern is computed before it is rendered. -/
inductive PatternRule where
  /-- a fixed pattern (R160, R186, R194, R200, the operand of R120) -/
  | const (p : Pattern)
  | vu
  | inverse
  | center
  | deflt
  | spectrum
  | waveform
  | knight
  | pingpong
  /-- `HB_TABLE[f]` -/
  | hbFrame (f : Nat)
  /-- `FW_LAUNCH[f]` -/
  | fwLaunch (f : Nat)
  /-- `1 << r` (R200) -/
  | drop
  deriving DecidableEq, Repr

/-- The moves the operations are made of. An event move performs one event of R13; the others are silent: they change
registers or local values between two events. A notification may land before any move (R72, R220). -/
inductive Move where
  /-- `Line(X, b)` with a fixed level -/
  | line (l : Line) (b : Bit)
  /-- `Line(DATA, p[i])` -/
  | dataBit (i : Nat)
  /-- `Delay(n)` -/
  | delay (ms : Nat)
  /-- `raw <- AdcConvert()`, the sample `raw[9:2]` to `s` (R130) -/
  | adcConvert
  /-- `c <- RandDraw(2)` (R201) -/
  | drawCoin
  /-- `r <- RandDraw(8)` (R200) -/
  | drawIndex
  /-- `if c = 1 then b <- RandDraw(8); p <- p | (1 << b)` (R201) -/
  | sparkleIndex
  /-- `p <-` a pattern rule (silent) -/
  | pattern (k : PatternRule)
  /-- `old <- BUF[CUR]` (silent, as the next five: R72, R133) -/
  | fuRead
  /-- `SUM <- SUM - old` -/
  | fuSub
  /-- `BUF[CUR] <- s` -/
  | fuStore
  /-- `SUM <- SUM + s` -/
  | fuAdd
  /-- `CUR <- (CUR + 1) mod 16` -/
  | fuAdvance
  /-- `return SUM / 16` to `avg` -/
  | fuReturn
  /-- the two flip tests of KNIGHT (silent, R180) -/
  | krFlip
  /-- the move of `KR_POS` (silent, R180) -/
  | krMove
  /-- the two flip tests of PINGPONG (silent, R183) -/
  | ppFlip
  /-- the move of `PP_W` (silent, R183) -/
  | ppMove
  /-- `WF_LAST <- v` (silent, R172) -/
  | wfStore
  /-- the end of a mode operation: `SEQ <- AT_DISPATCH` (silent, R31); the local values end with it -/
  | finish
  deriving DecidableEq, Repr

/-- The main flow's local values inside an operation (R215), and where an internal operation leaves its result. -/
structure Locals where
  /-- the sample, `s` or `v` (R95) -/
  s : Sample
  /-- FUPDATE's `old` (R133) -/
  old : Sample
  /-- the filter's average (R95) -/
  avg : Sample
  /-- the LED pattern (R21) -/
  p : Pattern
  /-- the coin (R201) -/
  c : Bit
  /-- a drawn bit index (R200, R201) -/
  r : BitIndex
  deriving DecidableEq, Repr

/-- No local values: what stands there between operations (R21; log 8). -/
def Locals.none : Locals := { s := 0, old := 0, avg := 0, p := 0, c := 0, r := 0 }

/-- One queued random draw (script line `RND n v`, R100). -/
inductive Draw where
  | coin (c : Bit)
  | index (b : BitIndex)
  deriving DecidableEq, Repr

/-- What the environment has in store for the core: the model's own fields (log 2 to 5, log 28). -/
structure Env where
  /-- the next raw readings, in order -/
  adc : List Raw
  /-- the next random draws, in order: one shared source (R205) -/
  rnd : List Draw
  /-- the next button levels, in order -/
  btn : List Bit
  /-- when EDGE notifications arrive: each entry is how many moves are still made before that EDGE, counted from the
  arrival before it. The list is finite, so only finitely many EDGEs are in store: a noise that goes on for ever and starves
  the main flow with it (U12, R257) is no run of the model (DESIGN CHOICE, log 2) -/
  edges : List Nat
  /-- how many free values each port has supplied -/
  adcCount : Nat
  rndCount : Nat
  btnCount : Nat
  deriving DecidableEq, Repr

/-- Nothing in store: no script (log 2 to 5). -/
def Env.empty : Env :=
  { adc := [], rnd := [], btn := [], edges := [], adcCount := 0, rndCount := 0, btnCount := 0 }

/-- The ring-buffer space (R60 a): a list of cells with rising addresses, none of them 0, since 0 is what an unlisted cell
reads as (R50: the buffer is zero at reset; log 17). Its operations stand in Machine/Memory.lean. -/
abbrev Memory := List Host.Cell

/-- The state of the core (R20), then the main flow's local values (R215), the inputs in store and the trace. -/
structure State where
  /-- `MODE`, the Mode Index (R23) -/
  mode : ModeIndex
  /-- `BUF[0..15]` (R25) -/
  buf : Memory
  /-- `CUR` (R26) -/
  cur : Cursor
  /-- `SUM` (R27) -/
  sum : RunningSum
  /-- `KR_POS` (R28) -/
  krPos : BitVec 3
  /-- `KR_DIR` (R28, R33) -/
  krDir : KrDir
  /-- `PP_W`, legal 1 to 4 (R28) -/
  ppW : BitVec 3
  /-- `PP_DIR` (R28, R33) -/
  ppDir : PpDir
  /-- `WF_LAST` (R28) -/
  wfLast : Sample
  /-- `DATA`, the level last driven (R40) -/
  data : Bit
  /-- `CLK` (R40) -/
  clk : Bit
  /-- `LATCH` (R40) -/
  latch : Bit
  /-- `SEQ` (R30) -/
  seq : Seq
  /-- the handler's sequencer (R32); `HACT` is its view (log 10) -/
  hseq : HandlerPlace
  /-- the local values of the operation in flight (R215; log 8) -/
  loc : Locals
  /-- the moves of the operation in flight still to be made: its place and loop counters (R215; log 8) -/
  todo : List Move
  /-- the inputs in store (log 2 to 5) -/
  env : Env
  /-- the event trace, newest first (R13; log 9) -/
  log : List Entry
  deriving DecidableEq, Repr

/-- The machine right after reset, which is program start at power-on (R50, R240). -/
def State.reset : State :=
  { mode := 0, buf := [], cur := 0, sum := 0, krPos := 0, krDir := .up, ppW := 1, ppDir := .grow, wfLast := 0,
    data := 0, clk := 0, latch := 0, seq := .atDispatch, hseq := .idle, loc := .none, todo := [], env := .empty, log := [] }

/-- Reasons a step can stop with a fault: none. "A model gives every operation exactly one outcome kind, next state, never
fault" (R210; log 25). Safe: nothing is hidden behind a fault. -/
inductive Fault where
  deriving DecidableEq, Repr

/-- Reasons a step can be refused. -/
inductive Refusal where
  /-- Raised by an arm of exec whose instruction has no meaning yet. Safe: nothing is claimed of it. -/
  | notModelled (mnemonic : String)
  /-- Raised by PINGPONG alone, in a state whose `PP_W` is 0, 5, 6 or 7: no run reaches one (R185), the rules give no
  meaning there, and U16 says a model should refuse it (log 13). Safe: the model stops where the spec gives no effect. -/
  | illegalBandWidth
  /-- Raised by the script runner alone (Machine/Script.lean), never by exec or step: a queued `RND n v` whose `n` differs from the
  `n` asked for makes the script ill-formed (R100). Safe: an ill-formed script has no run. -/
  | illFormedScript
  deriving DecidableEq, Repr

end Sys2Proof.Machine
end

