-- ==== Sys2Proof/Machine/Flags.lean ====
section
/-! DEFINITION. The one-bit state of the core (R33): the two direction flags with their flip rules, and HACT. There are no
condition codes. -/

namespace Sys2Proof.Machine

/-- The bit of `KR_DIR` (R22). -/
def KrDir.bit : KrDir → Bit
  | .up => 0
  | .down => 1

/-- The bit of `PP_DIR` (R22). -/
def PpDir.bit : PpDir → Bit
  | .grow => 0
  | .shrink => 1

/-- Whether the handler runs from this place: everywhere but idle (R32). -/
def HandlerPlace.active : HandlerPlace → Bool
  | .idle => false
  | .firstCheck => true
  | .debounce => true
  | .secondCheck => true

/-- `HACT`: 1 exactly while the handler's sequencer is not idle (R32). -/
def State.hact (s : State) : Bool := s.hseq.active

/-- KNIGHT's two flip tests in order: DOWN at position 7, UP at position 0, else left alone (R180, R181). -/
def krFlipped (pos : BitVec 3) (d : KrDir) : KrDir :=
  if pos = 0 then .up else if pos = 7 then .down else d

/-- KNIGHT's move: one up or one down (R180). -/
def krMoved (pos : BitVec 3) (d : KrDir) : BitVec 3 :=
  match d with
  | .up => pos + 1
  | .down => pos - 1

/-- PINGPONG's two flip tests in order: SHRINK at width 4, GROW at width 1, else left alone (R183, R184). -/
def ppFlipped (w : BitVec 3) (d : PpDir) : PpDir :=
  if w.toNat = params.pingpongMinW then .grow else if w.toNat = params.pingpongMaxW then .shrink else d

/-- PINGPONG's move: one wider or one narrower (R183). -/
def ppMoved (w : BitVec 3) (d : PpDir) : BitVec 3 :=
  match d with
  | .grow => w + 1
  | .shrink => w - 1

end Sys2Proof.Machine
end

