-- ==== Sys2Proof/Machine/Memory.lean ====
section
/-! DEFINITION. The ring-buffer space (R60 a, R61): reading and writing one cell, in one canonical form. -/

namespace Sys2Proof.Machine

/-- What an unlisted cell reads as: the buffer is zero-initialised at startup (R50, R136; log 17). -/
def Memory.unlisted : Sample := 0

/-- `MemRead(i, 1)` (R61). -/
def Memory.read : Memory → Nat → Sample
  | [], _ => Memory.unlisted
  | (a, v) :: rest, i => if a = i then v else Memory.read rest i

/-- Take a cell out of the list. -/
def Memory.drop : Memory → Nat → Memory
  | [], _ => []
  | (a, v) :: rest, i => if a = i then rest else (a, v) :: Memory.drop rest i

/-- Put a cell into its place in the list. -/
def Memory.insert : Memory → Nat → Sample → Memory
  | [], i, v => [(i, v)]
  | (a, w) :: rest, i, v =>
    if i < a then (i, v) :: (a, w) :: rest
    else if a = i then (i, v) :: rest
    else (a, w) :: Memory.insert rest i v

/-- `MemWrite(i, 1, v)` (R61); writing what an unlisted cell reads as removes the entry. -/
def Memory.write (m : Memory) (i : Nat) (v : Sample) : Memory :=
  if v = Memory.unlisted then Memory.drop m i else Memory.insert m i v

/-- The canonical form above an address: addresses strictly rising from it, all below 16 (R60: indices 0 to 15), and no
entry that equals what an unlisted cell reads as. -/
def Memory.wfFrom : Nat → Memory → Bool
  | _, [] => true
  | lo, (a, v) :: rest => decide (lo ≤ a) && decide (a < params.filterN) && decide (v ≠ Memory.unlisted) && Memory.wfFrom (a + 1) rest

/-- The canonical form of the ring-buffer space. -/
def Memory.wf (m : Memory) : Bool := Memory.wfFrom 0 m

/-- `BUF[0] + BUF[1] + ... + BUF[n-1]`, over the naturals. -/
def Memory.total (m : Memory) : Nat → Nat
  | 0 => 0
  | n + 1 => Memory.total m n + (Memory.read m n).toNat

end Sys2Proof.Machine
end

