-- ==== Sys2Proof/Config.lean ====
section
/-! DEFINITION. What the spec leaves open, as constants without a body: the two OPEN rows of R8's table and the environment's
free values. -/

namespace Sys2Proof

/-- `HB_TABLE[f]`, an OPEN parameter: no rule constrains its contents (R191, D18; log 6). -/
opaque Config.hbTable : Nat → Pattern

/-- The free part of `FW_LAUNCH` (R195, D19; log 7): how far above the lowest possible LED frame `f` may be lit.
`Machine.fwLaunch` turns it into a table that is one-hot and strictly rising whatever these values are, and every such
table arises from some values. -/
opaque Config.fwRise : Nat → Fin (Machine.params.numLeds - Machine.params.fwLaunchFrames + 1)

/-- The raw reading the n-th unscripted `AdcConvert()` returns, an oracle draw (R42; log 3). -/
opaque Config.freeRaw : Nat → Raw

/-- What the random source would answer to `RandDraw(2)` as its n-th unscripted draw (R45, R205; log 4). -/
opaque Config.freeCoin : Nat → Bit

/-- What the random source would answer to `RandDraw(8)` as its n-th unscripted draw (R45, R205; log 4). -/
opaque Config.freeIndex : Nat → BitIndex

/-- The level the n-th unscripted `BtnLevel()` finds on the button line (R43; log 5). -/
opaque Config.freeLevel : Nat → Bit

end Sys2Proof
end

