-- ==== Sys2Proof/Machine/Operands.lean ====
section
/-! DEFINITION. The derived operands of R95 and the pattern rules of the generators (R160 to R202): arithmetic over the
naturals, narrowed at the end (R10, R11, R174). -/

namespace Sys2Proof.Machine

/-- The sample of a raw reading, `raw[9:2]`: the two low bits are dropped, not rounded (R68, R130). -/
def sampleOf (raw : Raw) : Sample := trunc _ (raw.toNat >>> params.adcShift)

/-- The average FUPDATE returns, `floor(SUM / 16)` (R133, R135). -/
def averageOf (sum : RunningSum) : Sample := trunc _ (sum.toNat / params.filterN)

/-- The transition `next(m) = (m + 1) mod 13`, over the naturals on the zero-extended value (R143, R218). -/
def nextMode (m : ModeIndex) : ModeIndex := trunc _ ((m.toNat + 1) % params.totalModes)

/-- `CUR <- (CUR + 1) mod 16` (R26, R62). -/
def nextCursor (c : Cursor) : Cursor := trunc _ ((c.toNat + 1) % params.filterN)

/-- The shift count `k = avg >> 3` (R161). -/
def shiftCount (avg : Sample) : Nat := avg.toNat >>> params.vuShift

/-- The all-on mask (R194, glossary): one bit per LED, `0xFF`. -/
def fullMask : Nat := 2 ^ params.numLeds - 1

/-- The low mask of `n` bits, `trunc_8((1 << n) - 1)` (R95). -/
def lowMask (n : Nat) : Pattern := trunc _ ((1 <<< n) - 1)

/-- One lit LED, `1 << i`. -/
def oneHot (i : Nat) : Pattern := trunc _ (1 <<< i)

/-- VU: the full mask shifted left by `k`; a count of 8 or more gives zero (R162). -/
def vuPattern (avg : Sample) : Pattern := trunc _ (fullMask <<< shiftCount avg)

/-- DEFAULT: the default (right-shift) mask `0xFF >> k` (R168). -/
def defaultPattern (avg : Sample) : Pattern := trunc _ (fullMask >>> shiftCount avg)

/-- INVERSE: the complement `0xFF - base` of the default mask (R164). -/
def inversePattern (avg : Sample) : Pattern := trunc _ (fullMask - (defaultPattern avg).toNat)

/-- CENTER's pair count `(avg >> 4) + 1` (R166). -/
def pairCount (avg : Sample) : Nat := (avg.toNat >>> params.centerShift) + 1

/-- The pairs `0` to `n - 1` of CENTER: pair `i` is LED `3 - i` with LED `4 + i` (R166). -/
def centerPairs : Nat → Pattern
  | 0 => 0
  | i + 1 => centerPairs i ||| oneHot (3 - i) ||| oneHot (4 + i)

/-- CENTER: at most four pairs (R166). -/
def centerPattern (avg : Sample) : Pattern := centerPairs (min (pairCount avg) params.centerMaxPairs)

/-- SPECTRUM's level `(v >> 5) + 1` (R170). -/
def spectrumLevel (v : Sample) : Nat := (v.toNat >>> params.spectrumShift) + 1

/-- SPECTRUM: the low `n` bits (R170). -/
def spectrumPattern (v : Sample) : Pattern := lowMask (spectrumLevel v)

/-- WAVEFORM's count `min(8, |v - WF_LAST| / 32)`, the difference over the naturals (R172). -/
def waveformCount (v last : Sample) : Nat := min params.waveMax (absDiff v.toNat last.toNat / params.waveDiv)

/-- WAVEFORM: the low `n` bits (R172). -/
def waveformPattern (v last : Sample) : Pattern := lowMask (waveformCount v last)

/-- KNIGHT: `1 << KR_POS` (R180). -/
def knightPattern (pos : BitVec 3) : Pattern := oneHot pos.toNat

/-- PINGPONG's `band(w)`: the low `w` and the high `w` LEDs (R183). -/
def bandPattern (w : BitVec 3) : Pattern := lowMask w.toNat ||| trunc _ (fullMask <<< (params.numLeds - w.toNat))

/-- The widths PINGPONG has a meaning for, 1 to 4 (R22, R183). -/
def legalBand (w : BitVec 3) : Bool := decide (params.pingpongMinW ≤ w.toNat) && decide (w.toNat ≤ params.pingpongMaxW)

/-- Fade frame `i` of FIREWORKS, `0xFF >> (i + FW_FADE_FIRST_SHIFT)` (R194, R196). -/
def fadeFrame (i : Nat) : Pattern := trunc _ (fullMask >>> (i + params.fwFadeFirstShift))

/-- How far above LED `f` launch frame `f` is lit: never falling from frame to frame, at most 4 (R195; log 7). -/
def launchOffset : Nat → Nat
  | 0 => (Config.fwRise 0).val
  | f + 1 => max (launchOffset f) (Config.fwRise (f + 1)).val

/-- `FW_LAUNCH[f]`: one lit LED, its index strictly rising with `f` (R195). -/
def fwLaunch (f : Nat) : Pattern := oneHot (f + launchOffset f)

/-- The pattern a rule computes from the local values and the phase registers. -/
def patternOf (k : PatternRule) (s : State) : Pattern :=
  match k with
  | .const p => p
  | .vu => vuPattern s.loc.avg
  | .inverse => inversePattern s.loc.avg
  | .center => centerPattern s.loc.avg
  | .deflt => defaultPattern s.loc.avg
  | .spectrum => spectrumPattern s.loc.s
  | .waveform => waveformPattern s.loc.s s.wfLast
  | .knight => knightPattern s.krPos
  | .pingpong => bandPattern s.ppW
  | .hbFrame f => Config.hbTable f
  | .fwLaunch f => fwLaunch f
  | .drop => oneHot s.loc.r.toNat

end Sys2Proof.Machine
end

