-- ==== Sys2Proof/Machine/Ops.lean ====
section
/-! DEFINITION. The named operations every meaning is made of: events, the ports, the moves of the main flow, taking the
EDGE notification and returning from the handler, one tick of the machine, and running an operation to its end. -/

namespace Sys2Proof.Machine

/-! ## Events and lines -/

/-- Each event of an operation advances SEQ's step by one (R31). -/
def Seq.advance : Seq → Seq
  | .atDispatch => .atDispatch
  | .running op k => .running op (k + 1)

/-- The main flow performs an event: it enters the trace and SEQ's step advances (R13, R31). -/
def State.mainEvent (e : Event) (s : State) : State :=
  { s with log := ⟨.main, e⟩ :: s.log, seq := s.seq.advance }

/-- The handler performs an event: it enters the trace; SEQ does not advance (R32, R220). -/
def State.handlerEvent (e : Event) (s : State) : State :=
  { s with log := ⟨.handler, e⟩ :: s.log }

/-- A line register holds the level last driven (R40). -/
def State.setLine (l : Line) (b : Bit) (s : State) : State :=
  match l with
  | .data => { s with data := b }
  | .clk => { s with clk := b }
  | .latch => { s with latch := b }

/-- `Line(X, b)`: drive the line; repeating the level already driven is still an event (R40, R120). -/
def driveLine (l : Line) (b : Bit) (s : State) : State := (s.setLine l b).mainEvent (.line l b)

/-! ## The input ports -/

/-- The reading the next `AdcConvert()` returns: the scripted one, else the environment's free one (R42; log 3). -/
def State.nextRaw (s : State) : Raw :=
  match s.env.adc with
  | raw :: _ => raw
  | [] => Config.freeRaw s.env.adcCount

/-- The converter has delivered a reading. -/
def State.takeRaw (s : State) : State :=
  match s.env.adc with
  | _ :: rest => { s with env := { s.env with adc := rest } }
  | [] => { s with env := { s.env with adcCount := s.env.adcCount + 1 } }

/-- The value the next `RandDraw(2)` returns: a scripted coin at the head of the queue, else free (R45; log 4).
A queued index here makes a script ill-formed (R100), which is the script runner's to refuse (`scriptStep`); the draw itself is
any value. -/
def State.nextCoin (s : State) : Bit :=
  match s.env.rnd with
  | .coin c :: _ => c
  | .index _ :: _ => Config.freeCoin s.env.rndCount
  | [] => Config.freeCoin s.env.rndCount

/-- The random source has answered `RandDraw(2)`. -/
def State.takeCoin (s : State) : State :=
  match s.env.rnd with
  | .coin _ :: rest => { s with env := { s.env with rnd := rest } }
  | .index _ :: _ => { s with env := { s.env with rndCount := s.env.rndCount + 1 } }
  | [] => { s with env := { s.env with rndCount := s.env.rndCount + 1 } }

/-- The value the next `RandDraw(8)` returns: a scripted index at the head of the queue, else free (R45; log 4).
A queued coin here makes a script ill-formed (R100), as for `nextCoin`. -/
def State.nextIndex (s : State) : BitIndex :=
  match s.env.rnd with
  | .index b :: _ => b
  | .coin _ :: _ => Config.freeIndex s.env.rndCount
  | [] => Config.freeIndex s.env.rndCount

/-- The random source has answered `RandDraw(8)`. -/
def State.takeIndex (s : State) : State :=
  match s.env.rnd with
  | .index _ :: rest => { s with env := { s.env with rnd := rest } }
  | .coin _ :: _ => { s with env := { s.env with rndCount := s.env.rndCount + 1 } }
  | [] => { s with env := { s.env with rndCount := s.env.rndCount + 1 } }

/-- The level the next `BtnLevel()` returns: the scripted one, else the environment's free one (R43; log 5). -/
def State.nextLevel (s : State) : Bit :=
  match s.env.btn with
  | b :: _ => b
  | [] => Config.freeLevel s.env.btnCount

/-- The button line has been sampled. -/
def State.takeLevel (s : State) : State :=
  match s.env.btn with
  | _ :: rest => { s with env := { s.env with btn := rest } }
  | [] => { s with env := { s.env with btnCount := s.env.btnCount + 1 } }

/-- `s <- SAMPLE()`: one conversion, one event, the sample to the local `s` (R130). -/
def convert (s : State) : State :=
  let raw := s.nextRaw
  let s := s.takeRaw
  { s with loc := { s.loc with s := sampleOf raw } }.mainEvent (.adc raw)

/-- `c <- RandDraw(2)` (R201). -/
def drawCoin (s : State) : State :=
  let c := s.nextCoin
  let s := s.takeCoin
  { s with loc := { s.loc with c := c } }.mainEvent (.rnd 2 c.toNat)

/-- `r <- RandDraw(8)` (R200, R201). -/
def drawIndex (s : State) : State :=
  let r := s.nextIndex
  let s := s.takeIndex
  { s with loc := { s.loc with r := r } }.mainEvent (.rnd 8 r.toNat)

/-- `p <- p | (1 << b)` with the index just drawn (R201). -/
def orDrawnBit (s : State) : State := { s with loc := { s.loc with p := s.loc.p ||| oneHot s.loc.r.toNat } }

/-! ## The moves of the main flow -/

/-- The end of a mode operation: SEQ goes back to DISPATCH (R31) and its local values end with it (R21). -/
def endOperation (s : State) : State := { s with seq := .atDispatch, loc := .none }

/-- One move of the main flow. -/
def doMove (m : Move) (s : State) : State :=
  match m with
  | .line l b => driveLine l b s
  | .dataBit i => driveLine .data (BitVec.ofBool (s.loc.p.getLsbD i)) s
  | .delay ms => s.mainEvent (.delay ms)
  | .adcConvert => convert s
  | .drawCoin => drawCoin s
  | .drawIndex => drawIndex s
  | .sparkleIndex => if s.loc.c = 1 then orDrawnBit (drawIndex s) else s
  | .pattern k => { s with loc := { s.loc with p := patternOf k s } }
  | .fuRead => { s with loc := { s.loc with old := Memory.read s.buf s.cur.toNat } }
  | .fuSub => { s with sum := s.sum - s.loc.old.setWidth _ }
  | .fuStore => { s with buf := Memory.write s.buf s.cur.toNat s.loc.s }
  | .fuAdd => { s with sum := s.sum + s.loc.s.setWidth _ }
  | .fuAdvance => { s with cur := nextCursor s.cur }
  | .fuReturn => { s with loc := { s.loc with avg := averageOf s.sum } }
  | .krFlip => { s with krDir := krFlipped s.krPos s.krDir }
  | .krMove => { s with krPos := krMoved s.krPos s.krDir }
  | .ppFlip => { s with ppDir := ppFlipped s.ppW s.ppDir }
  | .ppMove => { s with ppW := ppMoved s.ppW s.ppDir }
  | .wfStore => { s with wfLast := s.loc.s }
  | .finish => endOperation s

/-- The moves of RENDER(p), `p` the local pattern: LATCH low, bits 7 to 0, LATCH high (R92, R120, R121). -/
def renderMoves : List Move :=
  [.line .latch 0] ++
  (List.range params.numLeds).reverse.flatMap (fun i => [.dataBit i, .line .clk 1, .line .clk 0]) ++
  [.line .latch 1]

/-- The move of SAMPLE (R130). -/
def sampleMoves : List Move := [.adcConvert]

/-- The moves of FUPDATE(s), `s` the local sample, in the order of R133. -/
def fupdateMoves : List Move := [.fuRead, .fuSub, .fuStore, .fuAdd, .fuAdvance, .fuReturn]

/-- Compute a pattern and render it. -/
def showMoves (k : PatternRule) : List Move := .pattern k :: renderMoves

/-- One frame of an animation: render a pattern and wait (R190, R194). -/
def frameMoves (k : PatternRule) (ms : Nat) : List Move := showMoves k ++ [.delay ms]

/-- What follows the frame of modes 0, 1, 3, 4, 7 and the default branch: no Delay event (R8, D22). -/
def postRenderMoves : List Move := (params.postRenderMs.map Move.delay).toList

/-- The common front end of the default dispatch branch: one SAMPLE, one FUPDATE (R161). -/
def compositeFront : List Move := sampleMoves ++ fupdateMoves

/-- A whole operation of the default dispatch branch with its pattern rule (R161). -/
def compositeMoves (k : PatternRule) : List Move := compositeFront ++ showMoves k ++ postRenderMoves ++ [.finish]

/-- The eight trials of SPARKLE_PATTERN from the empty pattern (R201). -/
def sparkleMoves : List Move :=
  .pattern (.const 0) :: (List.replicate params.sparkleTrials [Move.drawCoin, Move.sparkleIndex]).flatten

/-! ## Taking the notification, the handler, and its return -/

/-- TAKING THE NOTIFICATION. An EDGE arrives: while HACT = 0 it starts the handler, saving nothing (R44, R215); while
HACT = 1 it is discarded and leaves nothing behind (R44, R219). -/
def takeEdge (s : State) : State :=
  if s.hact then s else { s with hseq := .firstCheck }

/-- THE RETURN beside it: `HACT <- 0`; nothing is restored because nothing was saved (R221). -/
def handlerReturn (s : State) : State := { s with hseq := .idle }

/-- The transition of a confirmed button edge (R143, R216). -/
def confirmEdge (s : State) : State := { s with mode := nextMode s.mode }

/-- `BtnLevel()`: sample the line, one event of the handler (R43, R214). -/
def sampleLevel (s : State) : State := (s.takeLevel).handlerEvent (.btn s.nextLevel)

/-- One move of the handler from its place (R32, R214): first check, debounce wait, second check and transition. -/
def handlerMove (s : State) : State :=
  match s.hseq with
  | .idle => s
  | .firstCheck =>
    if s.nextLevel = 0 then { sampleLevel s with hseq := .debounce } else handlerReturn (sampleLevel s)
  | .debounce => { s.handlerEvent (.delay params.debounceMs) with hseq := .secondCheck }
  | .secondCheck =>
    if s.nextLevel = 0 then handlerReturn (confirmEdge (sampleLevel s)) else handlerReturn (sampleLevel s)

/-! ## The tick: one move of one flow -/

/-- Put the notification schedule in place. -/
def State.withEdges (es : List Nat) (s : State) : State := { s with env := { s.env with edges := es } }

/-- Every EDGE that is due arrives, one after the other (R213). -/
def deliverFrom : List Nat → State → State
  | 0 :: es, s => deliverFrom es (takeEdge s)
  | es, s => s.withEdges es

/-- The EDGEs due now arrive. -/
def deliver (s : State) : State := deliverFrom s.env.edges s

/-- A move has been made: the next EDGE is one move nearer. -/
def countDown : List Nat → List Nat
  | [] => []
  | n :: es => (n - 1) :: es

/-- A move has been made. -/
def State.movePassed (s : State) : State := s.withEdges (countDown s.env.edges)

/-- The main flow makes the next move of the operation in flight. -/
def mainMove (s : State) : State :=
  match s.todo with
  | [] => s
  | m :: ms => doMove m { s with todo := ms }

/-- One tick: the EDGEs due arrive; then the handler moves if it runs, and the main flow, frozen while HACT = 1, moves if
it does not (R74, R213, R220). -/
def tick (s : State) : State :=
  let s := deliver s
  (if s.hact then handlerMove s else mainMove s).movePassed

/-! ## Running to the end -/

/-- The moves the handler still has before it, at most. -/
def HandlerPlace.left : HandlerPlace → Nat
  | .idle => 0
  | .firstCheck => 3
  | .debounce => 2
  | .secondCheck => 1

/-- An upper bound on the ticks until the operation in flight has ended (Laws/Run.lean proves it is one). It exists because
the schedule is finite: under EDGEs without end, which U12 allows and R257 calls starvation, an operation need not end
(DESIGN CHOICE, log 2). -/
def budget (s : State) : Nat := s.todo.length + 3 * s.env.edges.length + s.hseq.left

/-- Tick until the operation in flight has no move left. -/
def run : Nat → State → State
  | 0, s => s
  | n + 1, s => if s.todo.isEmpty then s else run n (tick s)

/-- Run the operation in flight to completion (R148: nothing cancels it). That it completes rests on the finite schedule, not
on a rule: R257 lets a noisy line starve the main flow for as long as the noise lasts (DESIGN CHOICE, log 2). -/
def runToEnd (s : State) : State := run (budget s) s

/-- Tick while the handler runs. -/
def runHandler : Nat → State → State
  | 0, s => s
  | n + 1, s => if s.hact then runHandler n (tick s) else s

/-- The handler runs to completion before it returns control (R219, R221). -/
def handlerToEnd (s : State) : State := runHandler s.hseq.left s

/-- DISPATCH has selected an operation: `SEQ <- (op, 0)` (R31, R147), its moves before it, its local values new. -/
def enter (op : ModeOp) (ms : List Move) (s : State) : State :=
  { s with seq := .running op 0, loc := .none, todo := ms }

/-- A mode operation, from DISPATCH's selection to the return to DISPATCH (R140, R147). -/
def perform (op : ModeOp) (ms : List Move) (s : State) : State := runToEnd (enter op ms s)

/-- An internal operation, performed in place inside its caller (R14, R147): the caller's own moves wait. -/
def inPlace (ms : List Move) (s : State) : State := { runToEnd { s with todo := ms } with todo := s.todo }

end Sys2Proof.Machine
end

