-- ==== Sys2Proof/Machine/Handler.lean ====
section
/-! DEFINITION. The asynchronous operation ADVANCE, the Debounced Mode-Advance Handler (spec/60_exceptions.md). -/

namespace Sys2Proof.Machine

/-- ADVANCE: an EDGE arrives. While HACT = 0 it starts the handler, which runs to completion (R214, R219); while HACT = 1 it
is discarded and changes nothing (R44, R219). -/
def execAdvance (s : State) : Host.Outcome State Fault Refusal :=
  .next (if s.hact then s else handlerToEnd (takeEdge s))

end Sys2Proof.Machine
end

