-- ==== Sys2Proof/Machine/Internal.lean ====
section
/-! DEFINITION. The internal operations RENDER, SAMPLE and FUPDATE (spec/40_serializer.md, spec/41_sampler_filter.md): no
selector, performed in place inside their caller (R14, R99). A result is left in the caller's local values (log 8). -/

namespace Sys2Proof.Machine

/-- RENDER p (R120). -/
def execRender (p : Pattern) (s : State) : Host.Outcome State Fault Refusal :=
  .next (inPlace (showMoves (.const p)) s)

/-- SAMPLE (R130); its result is the local `s`. -/
def execSample (s : State) : Host.Outcome State Fault Refusal := .next (inPlace sampleMoves s)

/-- FUPDATE v (R133); its result is the local `avg`. -/
def execFupdate (v : Sample) (s : State) : Host.Outcome State Fault Refusal :=
  .next (inPlace fupdateMoves { s with loc := { s.loc with s := v } })

end Sys2Proof.Machine
end

