-- ==== Sys2Proof/Machine/Phase.lean ====
section
/-! DEFINITION. The generators driven by phase or by time alone (spec/44_generators_phase.md): KNIGHT, PINGPONG, STROBE. -/

namespace Sys2Proof.Machine

/-- The moves of KNIGHT: show, wait, the two flip tests, move (R180). -/
def knightMoves : List Move := frameMoves .knight params.knightMs ++ [.krFlip, .krMove, .finish]

/-- The moves of PINGPONG: show, wait, the two flip tests, move (R183). -/
def pingpongMoves : List Move := frameMoves .pingpong params.pingpongMs ++ [.ppFlip, .ppMove, .finish]

/-- The moves of STROBE: all on, wait, all off, wait (R186). -/
def strobeMoves : List Move :=
  frameMoves (.const 0xFF) params.strobeOnMs ++ frameMoves (.const 0) params.strobeOffMs ++ [.finish]

/-- KNIGHT (R180). -/
def execKnight (s : State) : Host.Outcome State Fault Refusal := .next (perform .knight knightMoves s)

/-- PINGPONG (R183); a width outside 1 to 4, which no run reaches, has no meaning in the rules and is refused (U16; log 13). -/
def execPingpong (s : State) : Host.Outcome State Fault Refusal :=
  if legalBand s.ppW then .next (perform .pingpong pingpongMoves s) else .refused .illegalBandWidth

/-- STROBE (R186). -/
def execStrobe (s : State) : Host.Outcome State Fault Refusal := .next (perform .strobe strobeMoves s)

end Sys2Proof.Machine
end

