-- ==== Sys2Proof/Machine/Random.lean ====
section
/-! DEFINITION. The pseudo-random generators (spec/46_generators_random.md): RAINDROP, SPARKLE, FLASH. -/

namespace Sys2Proof.Machine

/-- The moves of RAINDROP: clear, wait, draw, light one LED; no second delay (R200). -/
def raindropMoves : List Move :=
  frameMoves (.const 0) params.raindropMs ++ [.drawIndex] ++ showMoves .drop ++ [.finish]

/-- The moves of SPARKLE: eight trials, then render and wait (R201, R202). -/
def sparkleOpMoves : List Move := sparkleMoves ++ renderMoves ++ [.delay params.sparkleMs, .finish]

/-- The moves of FLASH: as SPARKLE, with its own delay (R204). -/
def flashMoves : List Move := sparkleMoves ++ renderMoves ++ [.delay params.flashMs, .finish]

/-- RAINDROP (R200). -/
def execRaindrop (s : State) : Host.Outcome State Fault Refusal := .next (perform .raindrop raindropMoves s)

/-- SPARKLE (R202). -/
def execSparkle (s : State) : Host.Outcome State Fault Refusal := .next (perform .sparkle sparkleOpMoves s)

/-- FLASH (R204). -/
def execFlash (s : State) : Host.Outcome State Fault Refusal := .next (perform .flash flashMoves s)

end Sys2Proof.Machine
end

