-- ==== Sys2Proof/Machine/Sequence.lean ====
section
/-! DEFINITION. The blocking sequence generators (spec/45_generators_sequence.md): HEARTBEAT, FIREWORKS. -/

namespace Sys2Proof.Machine

/-- The moves of HEARTBEAT: 24 frames of `HB_TABLE`, from frame 0 on every invocation (R63, R190). -/
def heartbeatMoves : List Move :=
  (List.range params.hbFrames).flatMap (fun f => frameMoves (.hbFrame f) params.hbFrameMs) ++ [.finish]

/-- The launch of FIREWORKS (R194). -/
def launchMoves : List Move :=
  (List.range params.fwLaunchFrames).flatMap fun f => frameMoves (.fwLaunch f) params.fwLaunchMs

/-- The fade of FIREWORKS (R194). -/
def fadeMoves : List Move :=
  (List.range params.fwFadeFrames).flatMap fun i => frameMoves (.const (fadeFrame i)) params.fwFadeMs

/-- The moves of FIREWORKS: launch, explosion, fade, blank pause (R194). -/
def fireworksMoves : List Move :=
  launchMoves ++ frameMoves (.const 0xFF) params.fwExplodeMs ++ fadeMoves ++
  frameMoves (.const 0) params.fwBlankMs ++ [.finish]

/-- HEARTBEAT (R190). -/
def execHeartbeat (s : State) : Host.Outcome State Fault Refusal := .next (perform .heartbeat heartbeatMoves s)

/-- FIREWORKS (R194). -/
def execFireworks (s : State) : Host.Outcome State Fault Refusal := .next (perform .fireworks fireworksMoves s)

end Sys2Proof.Machine
end

