-- ==== Sys2Proof/Machine/Volume.lean ====
section
/-! DEFINITION. The generators driven by nothing or by volume (spec/43_generators_volume.md): OFF, VU, INVERSE, CENTER,
DEFAULT, SPECTRUM, WAVEFORM. -/

namespace Sys2Proof.Machine

/-- The moves of OFF: `RENDER(0x00)` (R160). -/
def offMoves : List Move := showMoves (.const 0) ++ postRenderMoves ++ [.finish]

/-- The moves of SPECTRUM: the instantaneous volume, its low mask; the filter is not touched (R170). -/
def spectrumMoves : List Move := sampleMoves ++ showMoves .spectrum ++ postRenderMoves ++ [.finish]

/-- The moves of WAVEFORM: sample, render the change since the last volume, keep the volume, wait (R172). -/
def waveformMoves : List Move :=
  sampleMoves ++ showMoves .waveform ++ [.wfStore, .delay params.waveformMs, .finish]

/-- OFF (R160). -/
def execOff (s : State) : Host.Outcome State Fault Refusal := .next (perform .off offMoves s)

/-- VU (R162). -/
def execVu (s : State) : Host.Outcome State Fault Refusal := .next (perform .vu (compositeMoves .vu) s)

/-- INVERSE (R164). -/
def execInverse (s : State) : Host.Outcome State Fault Refusal :=
  .next (perform .inverse (compositeMoves .inverse) s)

/-- CENTER (R166, R167). -/
def execCenter (s : State) : Host.Outcome State Fault Refusal :=
  .next (perform .center (compositeMoves .center) s)

/-- What DEFAULT does, whichever unmatched selector was read (R168). -/
def defaultOperation (s : State) : State := perform .deflt (compositeMoves .deflt) s

/-- DEFAULT, selectors 14 to 15 (R168). -/
def execDefault14 (s : State) : Host.Outcome State Fault Refusal := .next (defaultOperation s)

/-- DEFAULT, selectors 16 to 31 (R168). -/
def execDefault16 (s : State) : Host.Outcome State Fault Refusal := .next (defaultOperation s)

/-- DEFAULT, selectors 32 to 63 (R168). -/
def execDefault32 (s : State) : Host.Outcome State Fault Refusal := .next (defaultOperation s)

/-- DEFAULT, selectors 64 to 127 (R168). -/
def execDefault64 (s : State) : Host.Outcome State Fault Refusal := .next (defaultOperation s)

/-- DEFAULT, selectors 128 to 255 (R168). -/
def execDefault128 (s : State) : Host.Outcome State Fault Refusal := .next (defaultOperation s)

/-- SPECTRUM (R170). -/
def execSpectrum (s : State) : Host.Outcome State Fault Refusal := .next (perform .spectrum spectrumMoves s)

/-- WAVEFORM (R172). -/
def execWaveform (s : State) : Host.Outcome State Fault Refusal := .next (perform .waveform waveformMoves s)

end Sys2Proof.Machine
end

