-- ==== Sys2Proof/Machine/Dispatch.lean ====
section
/-! DEFINITION. The meaning of every operation, one arm per constructor of `Instr`. -/

namespace Sys2Proof.Machine

-- One direct call of a meaning per arm.
def exec (i : Instr) (s : State) : Host.Outcome State Fault Refusal :=
  match i with
  | .off => Sys2Proof.Machine.execOff s
  | .vu => Sys2Proof.Machine.execVu s
  | .knight => Sys2Proof.Machine.execKnight s
  | .inverse => Sys2Proof.Machine.execInverse s
  | .center => Sys2Proof.Machine.execCenter s
  | .pingpong => Sys2Proof.Machine.execPingpong s
  | .raindrop => Sys2Proof.Machine.execRaindrop s
  | .spectrum => Sys2Proof.Machine.execSpectrum s
  | .waveform => Sys2Proof.Machine.execWaveform s
  | .heartbeat => Sys2Proof.Machine.execHeartbeat s
  | .fireworks => Sys2Proof.Machine.execFireworks s
  | .strobe => Sys2Proof.Machine.execStrobe s
  | .sparkle => Sys2Proof.Machine.execSparkle s
  | .flash => Sys2Proof.Machine.execFlash s
  | .default14 _ => Sys2Proof.Machine.execDefault14 s
  | .default16 _ => Sys2Proof.Machine.execDefault16 s
  | .default32 _ => Sys2Proof.Machine.execDefault32 s
  | .default64 _ => Sys2Proof.Machine.execDefault64 s
  | .default128 _ => Sys2Proof.Machine.execDefault128 s
  | .render p => Sys2Proof.Machine.execRender p s
  | .sample => Sys2Proof.Machine.execSample s
  | .fupdate v => Sys2Proof.Machine.execFupdate v s
  | .advance => Sys2Proof.Machine.execAdvance s

end Sys2Proof.Machine
end

