-- ==== Sys2Proof/Machine/Fetch.lean ====
section
/-! DEFINITION. What a step adds around exec: the read of MODE by DISPATCH, the EDGE that is taken before it, and resuming an
operation in flight. -/

namespace Sys2Proof.Machine

/-- DISPATCH's one atomic read of MODE, decoded (R97, R141). -/
def selected (s : State) : Instr := decodeMode s.mode

/-- DISPATCH has read MODE; it is a move of the main flow, so an EDGE may land right after it (R141, R220; log 21). -/
def dispatched (s : State) : State := s.movePassed

/-- Whether an EDGE arrives before the main flow's next move (R213). -/
def State.edgeDue (s : State) : Bool :=
  match s.env.edges with
  | [] => false
  | n :: _ => n == 0

/-- The EDGE that is due is taken off the schedule. -/
def State.popEdge (s : State) : State := s.withEdges s.env.edges.tail

/-- Resume the operation in flight and run it to its end (R148, R221). -/
def resume (s : State) : State := endOperation (runToEnd s)

end Sys2Proof.Machine
end

