-- ==== Sys2Proof/Machine/Step.lean ====
section
/-! DEFINITION. One step: one handler run, or one iteration of the main loop (R76, R100, R140; log 1). -/

namespace Sys2Proof.Machine

/-- One step. At DISPATCH: a handler in mid-run is finished; else an EDGE that is due is taken as ADVANCE (R213); else the
main flow reads MODE once and performs the operation it selects to completion (R140). In an operation: it is resumed. -/
def step (s : State) : Host.Outcome State Fault Refusal :=
  match s.seq with
  | .running _ _ => .next (resume s)
  | .atDispatch =>
    if s.hact then .next (handlerToEnd s)
    else if s.edgeDue then exec .advance s.popEdge
    else exec (selected s) (dispatched s)

/-- `s` with the selector byte `w` where DISPATCH reads its next instruction: in MODE, with the main flow at DISPATCH, no
handler running and no EDGE on the schedule, so that the very next step performs that operation (log 12). -/
def State.withFetchWord (s : State) (_nbits w : Nat) : State :=
  { s with mode := BitVec.ofNat _ w, seq := .atDispatch, hseq := .idle, todo := [], env := { s.env with edges := [] } }

end Sys2Proof.Machine
end

