-- ==== Sys2Proof/Machine/Trace.lean ====
section
/-! DEFINITION. The views of the trace the spec's statements use (R13, R92, R102): the whole trace, one flow's trace, the
26 events of a frame and its reading back, and the LED view. -/

namespace Sys2Proof.Machine

/-- The event trace of the run, in the order performed (R13). -/
def State.trace (s : State) : List Event := s.log.reverse.map Entry.ev

/-- The events one flow has performed, in order (R76: "value-traces per flow"). -/
def State.flowTrace (f : Flow) (s : State) : List Event := (s.log.filter fun e => e.flow = f).reverse.map Entry.ev

/-- The three events that carry one bit: DATA set, CLK pulsed (R92, R121). -/
def bitEvents (b : Bit) : List Event := [.line .data b, .line .clk 1, .line .clk 0]

/-- Format SERIAL8: the 26 line events of RENDER(p) (R92). -/
def serialFrame (p : Pattern) : List Event :=
  [.line .latch 0] ++
  bitEvents (BitVec.ofBool (p.getLsbD 7)) ++ bitEvents (BitVec.ofBool (p.getLsbD 6)) ++
  bitEvents (BitVec.ofBool (p.getLsbD 5)) ++ bitEvents (BitVec.ofBool (p.getLsbD 4)) ++
  bitEvents (BitVec.ofBool (p.getLsbD 3)) ++ bitEvents (BitVec.ofBool (p.getLsbD 2)) ++
  bitEvents (BitVec.ofBool (p.getLsbD 1)) ++ bitEvents (BitVec.ofBool (p.getLsbD 0)) ++
  [.line .latch 1]

/-- Read one bit of a frame off a trace. -/
def readBit : List Event → Option (Bit × List Event)
  | .line .data b :: .line .clk x :: .line .clk y :: rest => if x = 1 ∧ y = 0 then some (b, rest) else none
  | _ => none

/-- Read `n` bits, the first one read being the most significant (R66). -/
def readBits : Nat → Nat → List Event → Option (Nat × List Event)
  | 0, acc, es => some (acc, es)
  | n + 1, acc, es =>
    match readBit es with
    | some (b, rest) => readBits n (2 * acc + b.toNat) rest
    | none => none

/-- Read one frame of format SERIAL8 off a trace (R92). -/
def readFrame : List Event → Option (Pattern × List Event)
  | .line .latch x :: es =>
    if x = 0 then
      match readBits params.numLeds 0 es with
      | some (v, .line .latch y :: rest) => if y = 1 then some (BitVec.ofNat _ v, rest) else none
      | _ => none
    else none
  | _ => none

/-- An item of the LED view (R102): `R(0xPP)` or `D(n)`. -/
inductive LedItem where
  | render (p : Pattern)
  | delay (ms : Nat)
  deriving DecidableEq, Repr

/-- The LED view of a trace, of at most `n` events: its frames and delays, in order (R102). An `R` item is a frame whose 26
line events stand in the trace without another event among them. R102 does not say where the `R` item of a frame with handler
events inside it stands against the handler's `D(50)`: on a whole trace this view shows no `R` item for such a frame, only the
`D(50)`; on the main flow's own trace (`State.flowTrace .main`) it shows the frame (DESIGN CHOICE, log 29). -/
def ledViewFrom : Nat → List Event → List LedItem
  | 0, _ => []
  | _ + 1, [] => []
  | n + 1, e :: es =>
    match readFrame (e :: es), e with
    | some (p, rest), _ => .render p :: ledViewFrom n rest
    | none, .delay ms => .delay ms :: ledViewFrom n es
    | none, .line _ _ => ledViewFrom n es
    | none, .adc _ => ledViewFrom n es
    | none, .rnd _ _ => ledViewFrom n es
    | none, .btn _ => ledViewFrom n es

/-- The LED view of a trace (R102; a frame with handler events inside it is no `R` item, log 29). -/
def ledView (es : List Event) : List LedItem := ledViewFrom es.length es

/-- The events an LED item stands for (R102). -/
def LedItem.events : LedItem → List Event
  | .render p => serialFrame p
  | .delay ms => [.delay ms]

/-- The events a list of LED items stands for. -/
def ledEvents (items : List LedItem) : List Event := items.flatMap LedItem.events

end Sys2Proof.Machine
end

