-- ==== Sys2Proof/Machine/Device.lean ====
section
/-! DEFINITION. A shift register with eight LEDs that satisfies the contract of R123, as a reader of the core's line events.
It is a collaborator, not state of the core (R41, R47); its stage order is the spec's general-knowledge passage G1 (log 23). -/

namespace Sys2Proof.Machine

/-- The shift chain, the output register, and the levels the device last saw on its three lines (R123). -/
structure Device where
  sr : Pattern
  out : Pattern
  data : Bit
  clk : Bit
  latch : Bit
  deriving DecidableEq, Repr

/-- One clock pulse begins: `SR <- (SR[6:0], DATA)` (R123). -/
def Device.shift (d : Device) : Device := { d with sr := (d.sr <<< 1) ||| d.data.setWidth _ }

/-- What an event does to the device: a rise of CLK shifts, a rise of LATCH commits (R77, R122, R123). -/
def Device.see (d : Device) : Event → Device
  | .line .data b => { d with data := b }
  | .line .clk b => if d.clk = 0 ∧ b = 1 then { d.shift with clk := b } else { d with clk := b }
  | .line .latch b => if d.latch = 0 ∧ b = 1 then { d with out := d.sr, latch := b } else { d with latch := b }
  | .delay _ => d
  | .adc _ => d
  | .rnd _ _ => d
  | .btn _ => d

/-- The device after a trace. -/
def Device.after (d : Device) (es : List Event) : Device := es.foldl Device.see d

/-- Whether LED `k` is lit (R123: LED `k` = `OUT[k]`). -/
def Device.lit (d : Device) (k : Nat) : Bool := d.out.getLsbD k

end Sys2Proof.Machine
end

