-- ==== Sys2Proof/Machine/Script.lean ====
section
/-! DEFINITION. The stimulus-script notation of R100 and R101: what each line puts in store for the core, and running a
script (log 24). -/

namespace Sys2Proof.Machine

/-- A line of a stimulus script (R100). -/
inductive ScriptLine where
  /-- `ITER` -/
  | iter
  /-- `ITER n` -/
  | iterTimes (n : Nat)
  /-- `EDGE 1` -/
  | edgeUp
  /-- `EDGE 0 b2` -/
  | edgeDown (b2 : Bit)
  /-- `ADC raw` -/
  | adc (raw : Raw)
  /-- `RND n v` -/
  | rnd (d : Draw)
  deriving DecidableEq, Repr

/-- `PRESS` = `EDGE 0 0` (R101). -/
def ScriptLine.press : ScriptLine := .edgeDown 0

/-- `RELEASE` = `EDGE 1` (R101). -/
def ScriptLine.release : ScriptLine := .edgeUp

/-- `GLITCH` = `EDGE 0 1` (R101). -/
def ScriptLine.glitch : ScriptLine := .edgeDown 1

/-- `VOL s` = `ADC (s << 2)` (R101). -/
def ScriptLine.vol (v : Sample) : ScriptLine := .adc (BitVec.ofNat _ (v.toNat <<< params.adcShift))

/-- The levels a handler run will find, then an EDGE that is due now. -/
def State.edgeWith (levels : List Bit) (s : State) : State :=
  { s with env := { s.env with btn := levels ++ s.env.btn, edges := 0 :: s.env.edges } }

/-- The `n` of a queued draw `RND n v`. -/
def Draw.range : Draw → Nat
  | .coin _ => 2
  | .index _ => 8

/-- The `n` of every `RandDraw(n)` in a trace, in order. -/
def drawsAsked (es : List Event) : List Nat :=
  es.filterMap fun e => match e with
    | .rnd n _ => some n
    | .line _ _ => none
    | .delay _ => none
    | .adc _ => none
    | .btn _ => none

/-- Whether a queue of draws fits the `n` asked for, one after another, as far as both go: every queued `n` is the `n` asked. -/
def drawsFit : List Draw → List Nat → Bool
  | [], _ => true
  | _ :: _, [] => true
  | d :: ds, n :: ns => d.range == n && drawsFit ds ns

/-- The events a trace has gained between two states. -/
def newEvents (s t : State) : List Event := t.trace.drop s.trace.length

/-- A step of a script. The step itself is the machine's; where it asked for a draw whose `n` is not the queued one, the script is
ill-formed and is refused (R100). -/
def scriptStep (s : State) : Host.Outcome State Fault Refusal :=
  match step s with
  | .next t => if drawsFit s.env.rnd (drawsAsked (newEvents s t)) then .next t else .refused .illFormedScript
  | .fault f => .fault f
  | .refused r => .refused r

/-- A step of a script, `n` times. -/
def scriptSteps : Nat → State → Host.Outcome State Fault Refusal
  | 0, s => .next s
  | n + 1, s =>
    match scriptStep s with
    | .next t => scriptSteps n t
    | .fault f => .fault f
    | .refused r => .refused r

/-- Perform one line of a script (R100). -/
def performLine (l : ScriptLine) (s : State) : Host.Outcome State Fault Refusal :=
  match l with
  | .iter => scriptStep s
  | .iterTimes n => scriptSteps n s
  | .edgeUp => scriptStep (s.edgeWith [1])
  | .edgeDown b2 => scriptStep (s.edgeWith [0, b2])
  | .adc raw => .next { s with env := { s.env with adc := s.env.adc ++ [raw] } }
  | .rnd d => .next { s with env := { s.env with rnd := s.env.rnd ++ [d] } }

/-- Perform a script, top to bottom (R100). -/
def performScript : List ScriptLine → State → Host.Outcome State Fault Refusal
  | [], s => .next s
  | l :: ls, s =>
    match performLine l s with
    | .next t => performScript ls t
    | .fault f => .fault f
    | .refused r => .refused r

/-! ## A notification with its bounce (R144, R219) -/

/-- A notification on an idle core: the levels its handler run finds (the second one only if the first is 0), and its bounce,
EDGEs that arrive after it, scheduled as in `Env.edges`. -/
structure Notification where
  first : Bit
  second : Bit
  bounce : List Nat
  deriving DecidableEq, Repr

/-- The script line of a notification (R100). -/
def Notification.line (n : Notification) : ScriptLine := if n.first = 0 then .edgeDown n.second else .edgeUp

/-- Whether a notification is a confirmed button edge (R216). -/
def Notification.confirmed (n : Notification) : Bool := n.first == 0 && n.second == 0

/-- Whether all its bounce arrives while its handler runs: the run makes three moves where the first level is 0 (level, wait,
level), else one, and an EDGE due before the last of them finds HACT = 1. -/
def Notification.inWindow (n : Notification) : Bool := decide (n.bounce.sum ≤ if n.first = 0 then 2 else 0)

/-- Perform a notification: its bounce behind it on the schedule, then its script line. -/
def performNotification (n : Notification) (s : State) : Host.Outcome State Fault Refusal :=
  performLine n.line (s.withEdges (n.bounce ++ s.env.edges))

/-- Perform notifications, one after another. -/
def performNotifications : List Notification → State → Host.Outcome State Fault Refusal
  | [], s => .next s
  | n :: ns, s =>
    match performNotification n s with
    | .next t => performNotifications ns t
    | .fault f => .fault f
    | .refused r => .refused r

end Sys2Proof.Machine
end

