-- ==== Sys2Proof/Safety.lean ====
section
/-! DEFINITION. What the claims about the core are stated in: the invariant of a state between two steps, a run that never
stops, and the part of a state that each flow owns (R22, R217, R225). -/

namespace Sys2Proof.Machine

/-- A state between two operations as every run from reset meets it. -/
structure BetweenOperations (s : State) : Prop where
  /-- R23, R24: MODE is a valid index of the 13-mode cycle. -/
  mode : s.mode.toNat < params.totalModes
  /-- The ring buffer is in canonical form and inside its 16 cells (R60). -/
  buf : Memory.wf s.buf = true
  /-- R27, R134: SUM is the sum of the sixteen slots. -/
  sum : s.sum.toNat = Memory.total s.buf params.filterN
  /-- R22, R185: PP_W is 1 to 4. -/
  band : legalBand s.ppW = true
  /-- R121: CLK is 0 at the start of every RENDER. -/
  clk : s.clk = 0
  /-- R31: the main flow is at DISPATCH. -/
  seq : s.seq = .atDispatch
  /-- R32: the handler is idle, so HACT = 0. -/
  hseq : s.hseq = .idle
  /-- Nothing is in flight. -/
  todo : s.todo = []
  /-- R21: no local value outlives its operation. -/
  loc : s.loc = .none

/-- A run of the machine that never stops: after any number of steps there is a state (R31: "no terminal state"). -/
def RunsForEver (s : State) : Prop := ∀ n, ∃ t, Host.Core.run Sys2Proof.core n s = .next t

/-- The events of the main flow in a log. -/
def mainEntries (log : List Entry) : List Entry := log.filter fun e => e.flow = .main

/-- The events of the handler in a log. -/
def handlerEntries (log : List Entry) : List Entry := log.filter fun e => e.flow = .handler

/-- A state without what the handler flow owns or consumes: MODE and HACT (R225), its button levels, the notification
schedule, and its events. What is left is the main flow's. -/
def mainView (s : State) : State :=
  { s with mode := 0, hseq := .idle, log := mainEntries s.log,
           env := { s.env with btn := [], edges := [], btnCount := 0 } }

/-- The main flow makes all these moves, one after another, undisturbed. -/
def doMoves (ms : List Move) (s : State) : State := ms.foldl (fun s m => doMove m s) s

/-- The handler flow's part: MODE, HACT, its levels and its events (R217, R225). -/
structure HandlerView where
  mode : ModeIndex
  hseq : HandlerPlace
  btn : List Bit
  btnCount : Nat
  log : List Entry
  deriving DecidableEq, Repr

/-- The part of a state the handler flow owns or consumes. -/
def handlerView (s : State) : HandlerView :=
  { mode := s.mode, hseq := s.hseq, btn := s.env.btn, btnCount := s.env.btnCount, log := handlerEntries s.log }

/-- No EDGE disturbs what comes next: none is on the schedule and the handler is idle. -/
def Undisturbed (s : State) : Prop := s.env.edges = [] ∧ s.hseq = .idle

/-! ## The effects the spec's rules name, as functions on a state -/

/-- SEQ after `n` more events of the operation in flight (R31). -/
def Seq.advanceBy (q : Seq) (n : Nat) : Seq :=
  match q with
  | .atDispatch => .atDispatch
  | .running op k => .running op (k + n)

/-- Events of the main flow as the log holds them, newest first. -/
def mainLog (es : List Event) : List Entry := (es.map (Entry.mk .main)).reverse

/-- The main flow has performed these events and nothing else. -/
def afterEvents (es : List Event) (s : State) : State := { s with log := mainLog es ++ s.log }

/-- After RENDER(p): `DATA` = `p[0]`, `CLK` = 0, `LATCH` = 1, and the 26 events of the frame (R92, R120). -/
def afterRender (p : Pattern) (s : State) : State :=
  afterEvents (serialFrame p) { s with data := BitVec.ofBool (p.getLsbD 0), clk := 0, latch := 1 }

/-- After Delay(n). -/
def afterDelay (ms : Nat) (s : State) : State := afterEvents [.delay ms] s

/-- After one conversion: the reading is consumed and is in the trace (R130). -/
def afterConvert (s : State) : State := afterEvents [.adc s.nextRaw] s.takeRaw

/-- After FUPDATE(v), of the filter alone: the slot under the cursor, the running sum, the cursor (R133). -/
def afterFilter (v : Sample) (s : State) : State :=
  { s with sum := s.sum - (Memory.read s.buf s.cur.toNat).setWidth _ + v.setWidth _,
           buf := Memory.write s.buf s.cur.toNat v,
           cur := s.cur + 1 }

/-- The events a move of the main flow performs: one for an event move, none for a silent one (R31). -/
def moveEvents (m : Move) (s : State) : List Event :=
  match m with
  | .line l b => [.line l b]
  | .dataBit i => [.line .data (BitVec.ofBool (s.loc.p.getLsbD i))]
  | .delay ms => [.delay ms]
  | .adcConvert => [.adc s.nextRaw]
  | .drawCoin => [.rnd 2 s.nextCoin.toNat]
  | .drawIndex => [.rnd 8 s.nextIndex.toNat]
  | .sparkleIndex => if s.loc.c = 1 then [.rnd 8 s.nextIndex.toNat] else []
  | .pattern _ | .fuRead | .fuSub | .fuStore | .fuAdd | .fuAdvance | .fuReturn => []
  | .krFlip | .krMove | .ppFlip | .ppMove | .wfStore | .finish => []

/-- Between operations: SEQ at DISPATCH and nothing in flight (R21, R31). -/
def atRest (s : State) : State := { s with seq := .atDispatch, loc := .none, todo := [] }

/-- The bits SPARKLE's trials set: nothing for a coin 0, one bit for a coin 1 with its index (R201). -/
def trialPattern : List (Option BitIndex) → Pattern
  | [] => 0
  | none :: ts => trialPattern ts
  | some b :: ts => (BitVec.ofNat _ (1 <<< b.toNat)) ||| trialPattern ts

/-- The draws of SPARKLE's trials in the trace: the coin, and the index right after a coin 1 (R201). -/
def trialEvents : List (Option BitIndex) → List Event
  | [] => []
  | none :: ts => .rnd 2 0 :: trialEvents ts
  | some b :: ts => .rnd 2 1 :: .rnd 8 b.toNat :: trialEvents ts

/-- The script lines that make SPARKLE's trials come out so (R100). -/
def trialDraws : List (Option BitIndex) → List Draw
  | [] => []
  | none :: ts => .coin 0 :: trialDraws ts
  | some b :: ts => .coin 1 :: .index b :: trialDraws ts

/-- The same operation `n` times over, as successive iterations perform it. -/
def execTimes (i : Instr) : Nat → State → Host.Outcome State Fault Refusal
  | 0, s => .next s
  | n + 1, s =>
    match exec i s with
    | .next t => execTimes i n t
    | .fault f => .fault f
    | .refused r => .refused r

/-- A sequence of samples fed to the filter, one FUPDATE each. -/
def feed : List Sample → State → Host.Outcome State Fault Refusal
  | [], s => .next s
  | v :: vs, s =>
    match exec (.fupdate v) s with
    | .next t => feed vs t
    | .fault f => .fault f
    | .refused r => .refused r

/-! ## What an operation may write, and what its trace holds (R22, R126, R132, R138, R260) -/

/-- The operations that call FUPDATE, with FUPDATE itself (R138): the writers of BUF, CUR and SUM. -/
def usesFilter : Instr → Bool
  | .vu | .inverse | .center | .default14 _ | .default16 _ | .default32 _ | .default64 _ | .default128 _ => true
  | .fupdate _ => true
  | .off | .knight | .pingpong | .raindrop | .spectrum | .waveform | .heartbeat | .fireworks | .strobe => false
  | .sparkle | .flash | .render _ | .sample | .advance => false

/-- The operations that call SAMPLE, with SAMPLE itself (R132). -/
def usesConverter : Instr → Bool
  | .vu | .inverse | .center | .default14 _ | .default16 _ | .default32 _ | .default64 _ | .default128 _ => true
  | .spectrum | .waveform | .sample => true
  | .off | .knight | .pingpong | .raindrop | .heartbeat | .fireworks | .strobe | .sparkle | .flash => false
  | .render _ | .fupdate _ | .advance => false

/-- How many frames an operation sends (R126, R260). -/
def renderCalls : Instr → Nat
  | .off | .vu | .inverse | .center | .default14 _ | .default16 _ | .default32 _ | .default64 _ | .default128 _ => 1
  | .knight | .pingpong | .spectrum | .waveform | .sparkle | .flash | .render _ => 1
  | .raindrop | .strobe => 2
  | .heartbeat => 24
  | .fireworks => 14
  | .sample | .fupdate _ | .advance => 0

/-- The delays an operation of the main flow performs, in order (R260). -/
def delaysOf : Instr → List Nat
  | .off | .vu | .inverse | .center | .default14 _ | .default16 _ | .default32 _ | .default64 _ | .default128 _ => []
  | .spectrum | .render _ | .sample | .fupdate _ | .advance => []
  | .knight | .pingpong | .raindrop | .sparkle => [100]
  | .waveform => [50]
  | .heartbeat => List.replicate 24 75
  | .fireworks => List.replicate 4 150 ++ [300] ++ List.replicate 8 150 ++ [500]
  | .strobe => [50, 50]
  | .flash => [5]

/-- The delays in a trace, in order. -/
def delaysIn (es : List Event) : List Nat :=
  es.filterMap fun e => match e with
    | .delay ms => some ms
    | .line _ _ => none
    | .adc _ => none
    | .rnd _ _ => none
    | .btn _ => none

/-- The conversions in a trace. -/
def conversionsIn (es : List Event) : Nat :=
  es.countP fun e => match e with
    | .adc _ => true
    | .line _ _ => false
    | .delay _ => false
    | .rnd _ _ => false
    | .btn _ => false

/-- The rises of LATCH to 1, one per frame (R122, R126). -/
def framesIn (es : List Event) : Nat := es.count (.line .latch 1)

end Sys2Proof.Machine
end

