-- ==== Sys2Proof/Certificates/Slice0/Obligations.lean ====
section
/-! DEFINITION. The statements for the provers. `mainView` is the main flow's part of a state (all but MODE, HACT, the button
levels, the notification schedule and the handler's events), so a statement in it holds whatever notifications land in the
operation. The schedule is a finite list, so every operation ends: that it does is the model's choice where R257 lets a noise without
end starve the main flow (log 2). "The spec's decision D<n>" names a row of spec/92_eei_decisions.md the spec marks as its own. -/

open Sys2Proof Sys2Proof.Machine

/-! ## Encoding -/

/-- Selector words written out from the table of R97 decode to their operations (R97; the DEFAULT rows are the spec's decision
D10, their split into five rows the opcode table's). -/
def Obligations.SelectorWordsDecodeToTheirOperations : Prop :=
  decodeTableWord 8 0b00000000 = some .off ∧ decodeTableWord 8 0b00000001 = some .vu ∧
  decodeTableWord 8 0b00000010 = some .knight ∧ decodeTableWord 8 0b00000110 = some .raindrop ∧
  decodeTableWord 8 0b00001001 = some .heartbeat ∧ decodeTableWord 8 0b00001101 = some .flash ∧
  decodeTableWord 8 0b00001110 = some (.default14 0x0E) ∧ decodeTableWord 8 0b00011111 = some (.default16 0x1F) ∧
  decodeTableWord 8 0b10000000 = some (.default128 0x80)

/-- Each of the 256 selectors matches exactly one row of the opcode table, and the decoder gives that row's operation, which is
well-formed and encodes to that selector again (R97, R98). -/
def Obligations.EverySelectorHasExactlyOneTableRow : Prop :=
  ∀ m : ModeIndex, tableReadings m = [decodeMode m] ∧ (decodeMode m).wf = true ∧ (decodeMode m).selectable = true ∧
    encode (decodeMode m) = [m]

/-- Decoding an encoded well-formed operation gives it back with the rest of the bytes, for every operation that has a selector
(R97; the DEFAULT rows are the spec's decision D10); the others have no selector byte (R99). -/
def Obligations.DecodeOfEncodeIsTheOperation : Prop :=
  ∀ i : Instr, i.wf = true →
    (i.selectable = true → ∀ rest : List ModeIndex, decode (encode i ++ rest) = .ok (i, rest)) ∧
    (i.selectable = false → encode i = [])

/-- A serial frame read off the wire gives the pattern that was sent (R92). -/
def Obligations.SerialFrameReadsBack : Prop :=
  ∀ (p : Pattern) (rest : List Event), readFrame (serialFrame p ++ rest) = some (p, rest)

/-- Whatever reads as a frame is exactly the 26 line events of some pattern: no other events do (R92). -/
def Obligations.OnlySerialFramesReadAsFrames : Prop :=
  ∀ (es rest : List Event) (p : Pattern), readFrame es = some (p, rest) → es = serialFrame p ++ rest

/-- The LED view of the events of a list of items is that list (R102, the spec's notation, its decision D28; the
frames stand whole, log 29). -/
def Obligations.LedViewReadsItemsBack : Prop := ∀ items : List LedItem, ledView (ledEvents items) = items

/-! ## The step -/

/-- At DISPATCH, with no handler running and no EDGE due, a step is exec of the operation that MODE decodes to, and DISPATCH has
counted as one move for the notification schedule (R140, R141; the step's grain is log 1, the count log 21). -/
def Obligations.StepPerformsTheDispatchedOperation : Prop :=
  ∀ (s : State) (i : Instr), s.seq = .atDispatch → s.hseq = .idle → s.env.edges.head? ≠ some 0 →
    decode [s.mode] = .ok (i, []) →
    step s = exec i { s with env := { s.env with edges := countDown s.env.edges } }

/-- An EDGE that is due at DISPATCH is taken before DISPATCH reads MODE: the step is ADVANCE (R213; log 1). -/
def Obligations.StepTakesADueEdgeFirst : Prop :=
  ∀ (s : State) (es : List Nat), s.seq = .atDispatch → s.hseq = .idle → s.env.edges = 0 :: es →
    step s = exec .advance { s with env := { s.env with edges := es } }

/-- An operation in flight is never cancelled: the step resumes it, runs all its remaining moves on the main flow's part of the
state whatever MODE is and whatever notifications land, and comes back to DISPATCH (R31, R148). -/
def Obligations.OperationInFlightRunsToCompletion : Prop :=
  ∀ (s : State) (op : ModeOp) (k : Nat), s.seq = .running op k →
    ∃ t, step s = .next t ∧ t.seq = .atDispatch ∧ mainView t = atRest (doMoves s.todo (mainView s))

/-- A word stored where DISPATCH reads is performed by the very next step (log 12). -/
def Obligations.PlacedSelectorIsPerformedNext : Prop :=
  ∀ (s : State) (w : Nat) (i : Instr), decodeTableWord 8 w = some i →
    step (s.withFetchWord 8 w) = exec i (s.withFetchWord 8 w)

/-! ## RENDER, SAMPLE, FUPDATE -/

/-- RENDER p sends the 26 events of its frame, leaves DATA = p[0], CLK = 0, LATCH = 1, and touches nothing else (R120; the clock's
return to low is the spec's decision D8). The operand stands in the local `p` (log 8). -/
def Obligations.RenderSendsTheFrame : Prop :=
  ∀ (p : Pattern) (s : State), ∃ t, exec (.render p) s = .next t ∧
    t.flowTrace .main = s.flowTrace .main ++ serialFrame p ∧
    t.data = BitVec.ofBool (p.getLsbD 0) ∧ t.clk = 0 ∧ t.latch = 1 ∧
    mainView t = { afterRender p (mainView s) with seq := s.seq.advanceBy 26, loc := { s.loc with p := p } }

/-- SAMPLE performs one conversion and its result is the top eight bits of the reading, `raw >> 2`; it writes no register (R130).
That the result stands in the local `s` is log 8, SEQ's step is R31's. -/
def Obligations.SampleTakesTheTopEightBits : Prop :=
  ∀ s : State, ∃ t, exec .sample s = .next t ∧ t.loc.s.toNat = s.nextRaw.toNat / 4 ∧
    t.loc.s = s.nextRaw.extractLsb' 2 8 ∧
    mainView t = { afterConvert (mainView s) with
      seq := s.seq.advanceBy 1, loc := { s.loc with s := s.nextRaw.extractLsb' 2 8 } }

/-- FUPDATE v: SUM - old + v, the slot under the cursor gets v, the cursor wraps at 16, and the result is floor(SUM / 16) of the
new SUM; every other cell and register is untouched and no event is performed (R133). The model's own are the result's place, the
local `avg` (log 8), its truncation to 8 bits in states whose SUM is above 4080, which no run reaches (log 19), and the ring
buffer's canonical form, which FUPDATE keeps (log 17). -/
def Obligations.FupdateReplacesTheOldestSample : Prop :=
  ∀ (v : Sample) (s : State), Memory.wf s.buf = true → ∃ t, exec (.fupdate v) s = .next t ∧
    t.sum = s.sum - (Memory.read s.buf s.cur.toNat).setWidth _ + v.setWidth _ ∧
    Memory.read t.buf s.cur.toNat = v ∧
    (∀ a, a ≠ s.cur.toNat → Memory.read t.buf a = Memory.read s.buf a) ∧
    t.cur.toNat = (s.cur.toNat + 1) % 16 ∧ Memory.wf t.buf = true ∧
    t.loc.avg = BitVec.ofNat 8 (t.sum.toNat / 16) ∧
    mainView t = { mainView s with
      sum := t.sum, buf := t.buf, cur := t.cur, loc := { s.loc with s := v, old := t.loc.old, avg := t.loc.avg } }

/-- SUM is the sum of the sixteen slots at reset; if it is before FUPDATE, it is after it, the subtraction does not underflow, and the
sum stays at most 4080 (R134). The premise on the ring buffer is the model's invariant: its canonical form, which
FupdateReplacesTheOldestSample and EveryStepKeepsTheInvariant say is kept. -/
def Obligations.FupdateKeepsTheSumInvariant : Prop :=
  State.reset.sum.toNat = Memory.total State.reset.buf 16 ∧
  ∀ (v : Sample) (s t : State), Memory.wf s.buf = true → s.sum.toNat = Memory.total s.buf 16 →
    exec (.fupdate v) s = .next t →
    (Memory.read s.buf s.cur.toNat).toNat ≤ s.sum.toNat ∧
    t.sum.toNat = s.sum.toNat - (Memory.read s.buf s.cur.toNat).toNat + v.toNat ∧
    t.sum.toNat = Memory.total t.buf 16 ∧ t.sum.toNat ≤ 4080

/-- From an empty filter with the cursor anywhere, after any non-empty sequence of samples the average is floor(SUM / 16), which
is the sum of the last sixteen of them divided by 16 and truncated: the divisor is always the capacity, and SUM is at most 4080
(R135; that the start of the cursor does not matter is R51, a derivation of the spec's; the average's place, the local `avg`, is
log 8). -/
def Obligations.AverageIsOfTheLastSixteenSamples : Prop :=
  ∀ (vs : List Sample) (v : Sample) (s : State), s.buf = [] → s.sum = 0 →
    ∃ t, feed (vs ++ [v]) s = .next t ∧ t.loc.avg.toNat = t.sum.toNat / 16 ∧ t.sum.toNat ≤ 4080 ∧
      t.loc.avg.toNat = (((vs ++ [v]).reverse.take 16).map BitVec.toNat).sum / 16

/-- The window: from an empty ring buffer, after any samples the k-th newest of them, k below 16, stands k + 1 slots before the
cursor, so that after sixteen or more the oldest of the last sixteen stands at BUF[CUR]; slots no sample has reached read 0 (R137, a
derivation of the spec's). -/
def Obligations.RingBufferHoldsTheLastSixteenSamples : Prop :=
  ∀ (vs : List Sample) (s : State), s.buf = [] →
    ∃ t, feed vs s = .next t ∧ t.cur.toNat = (s.cur.toNat + vs.length) % 16 ∧
      ∀ k < 16, Memory.read t.buf ((t.cur.toNat + 15 - k) % 16) = (vs.reverse[k]?).getD 0

/-- Start-up: from an empty filter the j-th call on a constant input v gives floor(v * min(j, 16) / 16) (R136;
the cursor may start anywhere, R51, a derivation of the spec's; the average's place, the local `avg`, is log 8). -/
def Obligations.StartUpAveragesArePulledTowardZero : Prop :=
  ∀ (v : Sample) (j : Nat) (s : State), s.buf = [] → s.sum = 0 →
    ∃ t, feed (List.replicate (j + 1) v) s = .next t ∧ t.loc.avg.toNat = v.toNat * min (j + 1) 16 / 16

/-! ## Generators driven by nothing or by volume -/

/-- OFF renders the all-zero pattern and nothing else (R160; that no delay follows is the spec's decision D22). -/
def Obligations.OffRendersAllDark : Prop :=
  ∀ s : State, ∃ t, exec .off s = .next t ∧ mainView t = atRest (afterRender 0x00 (mainView s))

/-- VU: one conversion, one filter update, then the full mask shifted left by avg >> 3 (R161, R162; shifts by 8 or more give zero by
the spec's decision D9, no delay by D22). -/
def Obligations.VuRendersTheLeftShiftedMask : Prop :=
  ∀ s : State, ∃ t, exec .vu s = .next t ∧
    mainView t = atRest (afterRender (BitVec.ofNat 8 (0xFF <<< ((averageOf t.sum).toNat >>> 3)))
      (afterFilter (s.nextRaw.extractLsb' 2 8) (afterConvert (mainView s))))

/-- INVERSE: one conversion, one filter update, then the complement of the full mask shifted right by avg >> 3 (R161, R164; D9, D22). -/
def Obligations.InverseRendersTheComplementedMask : Prop :=
  ∀ s : State, ∃ t, exec .inverse s = .next t ∧
    mainView t = atRest (afterRender (~~~(BitVec.ofNat 8 (0xFF >>> ((averageOf t.sum).toNat >>> 3))))
      (afterFilter (s.nextRaw.extractLsb' 2 8) (afterConvert (mainView s))))

/-- CENTER: one conversion, one filter update, then min((avg >> 4) + 1, 4) pairs around the LED3/LED4 boundary: LED k is lit exactly
when it belongs to one of them (R161, R166; the clamp at four pairs is the spec's decision D11, no delay D22). -/
def Obligations.CenterRendersSymmetricPairs : Prop :=
  ∀ s : State, ∃ t p, exec .center s = .next t ∧
    (∀ k < 8, BitVec.getLsbD p k =
      decide (4 - min ((averageOf t.sum).toNat / 16 + 1) 4 ≤ k ∧ k < 4 + min ((averageOf t.sum).toNat / 16 + 1) 4)) ∧
    mainView t = atRest (afterRender p (afterFilter (s.nextRaw.extractLsb' 2 8) (afterConvert (mainView s))))

/-- DEFAULT, for every unmatched selector: one conversion, one filter update, then the full mask shifted right by avg >> 3 (R161,
R168; the picture is the spec's decision D10; D9, D22). -/
def Obligations.DefaultRendersTheRightShiftedMask : Prop :=
  ∀ (i : Instr) (m : ModeIndex) (s : State),
    (i = .default14 m ∨ i = .default16 m ∨ i = .default32 m ∨ i = .default64 m ∨ i = .default128 m) →
    ∃ t, exec i s = .next t ∧
      mainView t = atRest (afterRender (BitVec.ofNat 8 (0xFF >>> ((averageOf t.sum).toNat >>> 3)))
        (afterFilter (s.nextRaw.extractLsb' 2 8) (afterConvert (mainView s))))

/-- SPECTRUM: one conversion, then the low (v >> 5) + 1 bits; the filter is not touched (R170; the thresholds are the spec's decision
D16, no delay D22). -/
def Obligations.SpectrumRendersTheLevelMask : Prop :=
  ∀ s : State, ∃ t, exec .spectrum s = .next t ∧
    mainView t = atRest (afterRender (BitVec.ofNat 8 (2 ^ ((s.nextRaw.extractLsb' 2 8).toNat / 32 + 1) - 1))
      (afterConvert (mainView s)))

/-- WAVEFORM: one conversion, then the low |v - WF_LAST| / 32 bits, 50 ms, and WF_LAST becomes v; the filter is not touched (R172; the
natural difference and the unconditional update are the spec's decision D17). The bound 8 never binds. -/
def Obligations.WaveformRendersTheChangeOfVolume : Prop :=
  ∀ s : State, ∃ t n, exec .waveform s = .next t ∧
    n = ((s.nextRaw.extractLsb' 2 8).toNat - s.wfLast.toNat + (s.wfLast.toNat - (s.nextRaw.extractLsb' 2 8).toNat)) / 32 ∧
    n < 8 ∧
    mainView t = atRest { afterDelay 50 (afterRender (BitVec.ofNat 8 (2 ^ n - 1)) (afterConvert (mainView s))) with
      wfLast := s.nextRaw.extractLsb' 2 8 }

/-! ## Generators driven by phase or by time -/

/-- KNIGHT shows its position, waits 100 ms, flips at an end and moves one toward the other end; the position stays in 0 to 7 and the
pattern has one lit bit (R180, R182; the order of show, wait and move is the spec's decision D12). -/
def Obligations.KnightShowsThenMoves : Prop :=
  ∀ s : State, ∃ t, exec .knight s = .next t ∧
    t.krPos.toNat = (if s.krPos.toNat = 7 then 6 else if s.krPos.toNat = 0 then 1
      else match s.krDir with | .up => s.krPos.toNat + 1 | .down => s.krPos.toNat - 1) ∧
    mainView t = atRest { afterDelay 100 (afterRender (BitVec.ofNat 8 (2 ^ s.krPos.toNat)) (mainView s)) with
      krPos := t.krPos, krDir := t.krDir }

/-- KNIGHT's direction flips exactly at position 0 and position 7, for any starting direction (R181; that the flip falls
in the invocation that shows the end position is the spec's decision D12). -/
def Obligations.KnightDirectionFlipsAtTheEndsOnly : Prop :=
  ∀ s : State, ∃ t, exec .knight s = .next t ∧
    t.krDir = (if s.krPos.toNat = 7 then .down else if s.krPos.toNat = 0 then .up else s.krDir)

/-- The sweep has period 14: from any state, after one invocation, fourteen more bring position and direction back (R182). -/
def Obligations.KnightSweepHasPeriodFourteen : Prop :=
  ∀ s t : State, exec .knight s = .next t →
    ∃ u, execTimes .knight 14 t = .next u ∧ u.krPos = t.krPos ∧ u.krDir = t.krDir

/-- PINGPONG, at a legal width 1 to 4: two bands of that width, 100 ms, the flip at width 4 or 1, one step; the width stays in 1 to 4
(R183, R184, R185; masks and order are the spec's decision D13). -/
def Obligations.PingpongShowsTwoBandsThenStepsTheWidth : Prop :=
  ∀ s : State, 1 ≤ s.ppW.toNat → s.ppW.toNat ≤ 4 → ∃ t p, exec .pingpong s = .next t ∧
    (∀ k < 8, BitVec.getLsbD p k = decide (k < s.ppW.toNat ∨ 8 - s.ppW.toNat ≤ k)) ∧
    t.ppDir = (if s.ppW.toNat = 4 then .shrink else if s.ppW.toNat = 1 then .grow else s.ppDir) ∧
    t.ppW.toNat = (match t.ppDir with | .grow => s.ppW.toNat + 1 | .shrink => s.ppW.toNat - 1) ∧
    1 ≤ t.ppW.toNat ∧ t.ppW.toNat ≤ 4 ∧
    mainView t = atRest { afterDelay 100 (afterRender p (mainView s)) with ppW := t.ppW, ppDir := t.ppDir }

/-- PINGPONG is refused exactly at the widths the rules give no meaning to, 0 and 5 to 7, which no run reaches (U16; log 13). -/
def Obligations.PingpongIsRefusedAtIllegalWidthsOnly : Prop :=
  ∀ s : State, exec .pingpong s = .refused .illegalBandWidth ↔ s.ppW.toNat = 0 ∨ 5 ≤ s.ppW.toNat

/-- STROBE: all on, 50 ms, all off, 50 ms, no phase (R186; both halves in one invocation is the spec's decision D14). -/
def Obligations.StrobeBlinksOnce : Prop :=
  ∀ s : State, ∃ t, exec .strobe s = .next t ∧
    mainView t = atRest (afterDelay 50 (afterRender 0x00 (afterDelay 50 (afterRender 0xFF (mainView s)))))

/-! ## Blocking sequences -/

/-- HEARTBEAT plays the 24 frames of its table from frame 0, 75 ms each, whatever the table is (R190). -/
def Obligations.HeartbeatPlaysItsTableOnce : Prop :=
  ∀ s : State, ∃ t, exec .heartbeat s = .next t ∧
    mainView t = atRest ((List.range 24).foldl
      (fun u f => afterDelay 75 (afterRender (Config.hbTable f) u)) (mainView s))

/-- FIREWORKS: four launch frames at 150 ms, the explosion 300 ms, eight fade frames 0xFF >> i at 150 ms, the blank pause 500 ms
(R194; the fade's range and the blank frame are the spec's decision D20). -/
def Obligations.FireworksPlaysItsSequence : Prop :=
  ∀ s : State, ∃ t, exec .fireworks s = .next t ∧
    mainView t = atRest (afterDelay 500 (afterRender 0x00
      ((List.range 8).foldl (fun u i => afterDelay 150 (afterRender (BitVec.ofNat 8 (0xFF >>> i)) u))
        (afterDelay 300 (afterRender 0xFF
          ((List.range 4).foldl (fun u f => afterDelay 150 (afterRender (fwLaunch f) u)) (mainView s)))))))

/-- Each launch frame lights exactly one LED, and its index strictly rises from frame to frame (R195, the spec's decision D19; the
form of the constant is log 7). -/
def Obligations.LaunchFramesRiseOneLedAtATime : Prop :=
  ∃ led : Nat → Nat, led 0 < led 1 ∧ led 1 < led 2 ∧ led 2 < led 3 ∧
    ∀ f < 4, led f < 8 ∧ ∀ k < 8, (fwLaunch f).getLsbD k = decide (k = led f)

/-! ## Random generators -/

/-- RAINDROP: clear, 100 ms, draw, light the drawn LED, no second delay (R200; the clear and the missing tail are the spec's
decision D15). -/
def Obligations.RaindropLightsTheDrawnLed : Prop :=
  ∀ s : State, ∃ t, exec .raindrop s = .next t ∧
    mainView t = atRest (afterRender (BitVec.ofNat 8 (2 ^ s.nextIndex.toNat))
      (afterEvents [.rnd 8 s.nextIndex.toNat]
        { afterDelay 100 (afterRender 0x00 (mainView s)) with env := (mainView s.takeIndex).env }))

/-- SPARKLE and FLASH, whatever the source draws: eight trials (a coin, and the index right after a coin 1), then one frame with the
drawn bits ORed, then 100 ms or 5 ms (R201, R202, R204; the draw order is the spec's decision D21). -/
def Obligations.SparkleAndFlashOrEightTrials : Prop :=
  ∀ (i : Instr) (ms : Nat) (s : State), (i = .sparkle ∧ ms = 100) ∨ (i = .flash ∧ ms = 5) →
    ∃ t trials, exec i s = .next t ∧ trials.length = 8 ∧
      mainView t = atRest (afterDelay ms (afterRender (trialPattern trials)
        (afterEvents (trialEvents trials)
          { mainView s with env := { (mainView s).env with rnd := t.env.rnd, rndCount := t.env.rndCount } })))

/-- The drawn values are the ones the source supplies, in order: where the queue begins with eight trials' draws, those are the trials
and they are consumed (R100, R201, R205; D21). -/
def Obligations.SparkleAndFlashUseTheSuppliedDraws : Prop :=
  ∀ (i : Instr) (ms : Nat) (s : State) (trials : List (Option BitIndex)) (rest : List Draw),
    (i = .sparkle ∧ ms = 100) ∨ (i = .flash ∧ ms = 5) → trials.length = 8 → s.env.rnd = trialDraws trials ++ rest →
    ∃ t, exec i s = .next t ∧
      mainView t = atRest (afterDelay ms (afterRender (trialPattern trials)
        (afterEvents (trialEvents trials) { mainView s with env := { (mainView s).env with rnd := rest } })))

/-! ## The handler -/

/-- ADVANCE while HACT = 0, its three event sequences: not asserted at the first check, it returns at once; asserted once only, it
waits 50 ms and changes nothing; asserted at both checks, MODE becomes (MODE + 1) mod 13. The handler is idle afterwards, and the
main flow's part of the state is as it was (R214; that the line is sampled at two instants is the spec's decision D33). -/
def Obligations.AdvanceDebouncesTheButton : Prop :=
  ∀ s : State, s.hseq = .idle → ∃ t, exec .advance s = .next t ∧ t.hseq = .idle ∧ mainView t = mainView s ∧
    (s.nextLevel = 1 → t.mode = s.mode ∧ t.trace = s.trace ++ [.btn 1]) ∧
    (s.nextLevel = 0 → s.takeLevel.nextLevel = 1 → t.mode = s.mode ∧ t.trace = s.trace ++ [.btn 0, .delay 50, .btn 1]) ∧
    (s.nextLevel = 0 → s.takeLevel.nextLevel = 0 →
      t.mode.toNat = (s.mode.toNat + 1) % 13 ∧ t.trace = s.trace ++ [.btn 0, .delay 50, .btn 0])

/-- MODE changes in a handler run exactly when the notification is accepted and both samples of the line return 0, and then by
exactly one transition (R216; the transition is R143, the two samples D33, its value outside 0 to 12 D25). -/
def Obligations.OnlyAConfirmedEdgeChangesMode : Prop :=
  ∀ s : State, ∃ t, exec .advance s = .next t ∧
    (t.mode ≠ s.mode ↔ s.hact = false ∧ s.nextLevel = 0 ∧ s.takeLevel.nextLevel = 0) ∧
    (t.mode ≠ s.mode → t.mode.toNat = (s.mode.toNat + 1) % 13)

/-- What the handler may touch (R217). It reads levels, waits and writes MODE: the events it adds are its own and are levels and
delays. It writes nothing else: filter, phase registers, lines, SEQ and the operation in flight are as they were. It reads nothing
else: two states that agree in its part (MODE, HACT, the levels, its events) agree in it afterwards. And MODE is written only by it:
an operation of the main flow in which no EDGE arrives leaves MODE alone. (What it writes to MODE is
OnlyAConfirmedEdgeChangesMode.) -/
def Obligations.HandlerTouchesOnlyMode : Prop :=
  (∀ s : State, ∃ t es, exec .advance s = .next t ∧ mainView t = mainView s ∧ t.log = es ++ s.log ∧
    (∀ e ∈ es, e.flow = .handler ∧ ((∃ b, e.ev = .btn b) ∨ ∃ ms, e.ev = .delay ms)) ∧
    ∀ s' : State, handlerView s' = handlerView s →
      ∃ t', exec .advance s' = .next t' ∧ handlerView t' = handlerView t) ∧
  (∀ (i : Instr) (s t : State), i ≠ .advance → Undisturbed s → exec i s = .next t → t.mode = s.mode)

/-- An EDGE that arrives while HACT = 1 is discarded: it changes nothing and is not remembered (R44, R219, the spec's decision D23). -/
def Obligations.EdgeDuringTheHandlerIsDiscarded : Prop :=
  ∀ s : State, s.hact = true → exec .advance s = .next s

/-- The transition on every value of MODE is (MODE + 1) mod 13 over the naturals, it lands in 0 to 12, and MODE stays there in every
later step (R218; its value outside 0 to 12 is the spec's decision D25). -/
def Obligations.TransitionIsTotalAndLandsInTheCycle : Prop :=
  (∀ s : State, s.hseq = .idle → s.nextLevel = 0 → s.takeLevel.nextLevel = 0 →
    ∃ t, exec .advance s = .next t ∧ t.mode.toNat = (s.mode.toNat + 1) % 13 ∧ t.mode.toNat < 13) ∧
  (∀ s t : State, s.mode.toNat < 13 → step s = .next t → t.mode.toNat < 13)

/-- Counting: after any list of notifications, MODE has advanced by the number of confirmed button edges modulo 13, whatever
releases and glitches stand between them and however many EDGEs bounce inside each debounce window (R144, a derivation of the
spec's; the discarded bounce is R219, its decision D23; the schedule is log 2, the script's form log 24). -/
def Obligations.ModeCountsConfirmedEdges : Prop :=
  ∀ (ns : List Notification) (s : State), BetweenOperations s → s.env.edges = [] → (∀ n ∈ ns, n.inWindow = true) →
    ∃ t, performNotifications ns s = .next t ∧ BetweenOperations t ∧ t.env.edges = [] ∧
      t.mode.toNat = (s.mode.toNat + (ns.filter Notification.confirmed).length) % 13

/-- A tick while HACT = 1 is a move of the handler: no event of the main flow is performed and SEQ does not advance (R32, R220). -/
def Obligations.MainFlowIsFrozenWhileTheHandlerRuns : Prop :=
  ∀ s : State, s.hact = true → mainView (tick s) = mainView s ∧ (tick s).hseq.left < s.hseq.left

/-- An EDGE that is due is taken before the main flow's next move, wherever the operation in flight stands (R213, R215, R220). -/
def Obligations.DueEdgePreemptsTheMainFlow : Prop :=
  ∀ (s : State) (es : List Nat), s.hseq = .idle → s.env.edges = 0 :: es →
    mainView (tick s) = mainView s ∧ (tick s).log = ⟨.handler, .btn s.nextLevel⟩ :: s.log

/-- A tick with HACT = 0 and no EDGE due is one move of the main flow: its event, if it is an event move, enters the trace and SEQ's
step advances by one; a silent move performs no event and leaves SEQ, but for the end of the operation, which goes back to
DISPATCH (R31, R74). -/
def Obligations.EachEventAdvancesTheSequencer : Prop :=
  ∀ (s : State) (op : ModeOp) (k : Nat) (m : Move) (ms : List Move), s.hseq = .idle →
    s.env.edges.head? ≠ some 0 → s.seq = .running op k → s.todo = m :: ms →
    (tick s).todo = ms ∧ (tick s).log = mainLog (moveEvents m s) ++ s.log ∧
    (tick s).seq = if m = .finish then .atDispatch else .running op (k + (moveEvents m s).length)

/-! ## Frames over all operations -/

/-- Ownership: no operation other than its owner writes a phase register; BUF, CUR and SUM are written only by the operations that
call FUPDATE (R138, the spec's decision D26), ADVANCE writes none of them; so all survive a mode switch (R29). -/
def Obligations.RegistersAreWrittenByTheirOwnersOnly : Prop :=
  ∀ (i : Instr) (s t : State), exec i s = .next t →
    (i ≠ .knight → t.krPos = s.krPos ∧ t.krDir = s.krDir) ∧
    (i ≠ .pingpong → t.ppW = s.ppW ∧ t.ppDir = s.ppDir) ∧
    (i ≠ .waveform → t.wfLast = s.wfLast) ∧
    (usesFilter i = false → t.buf = s.buf ∧ t.cur = s.cur ∧ t.sum = s.sum)

/-- Memory frame: an operation that calls FUPDATE stores one byte, at the cursor, and every other cell reads as before; any other
operation stores nothing (R61, R62, R138). -/
def Obligations.OnlyTheSlotUnderTheCursorIsStored : Prop :=
  ∀ (i : Instr) (s t : State), exec i s = .next t →
    (∀ a, a ≠ s.cur.toNat → Memory.read t.buf a = Memory.read s.buf a) ∧
    (usesFilter i = false → ∀ a, Memory.read t.buf a = Memory.read s.buf a)

/-- MODE and HACT are the handler's: an operation of the main flow that nothing disturbs leaves them, and the button levels and the
handler's events, as they were, and its whole trace is its own (R22, R217, R225). -/
def Obligations.UndisturbedOperationLeavesTheHandlersPart : Prop :=
  ∀ (i : Instr) (s t : State), i ≠ .advance → Undisturbed s → exec i s = .next t →
    handlerView t = handlerView s ∧ Undisturbed t

/-- Whatever lands in an operation, MODE moves only by whole transitions: at most one per EDGE that was on the schedule, and one more
only where a handler was already running (R23, R143, R149; the schedule is log 2). -/
def Obligations.ModeMovesOnlyByTransitions : Prop :=
  ∀ (i : Instr) (s t : State), i ≠ .advance → exec i s = .next t →
    ∃ k, k ≤ s.env.edges.length + (if s.hact then 1 else 0) ∧ t.mode = nextMode^[k] s.mode

/-- Every operation but ADVANCE sends the number of frames of R126 and performs the delays of R260 in their order and one conversion
exactly if it calls SAMPLE (R126, R132, R260; the spec's decisions D14, D15, D20, D22, D26). -/
def Obligations.FramesDelaysAndConversionsPerOperation : Prop :=
  ∀ (i : Instr) (s t : State), i ≠ .advance → exec i s = .next t →
    ∃ es, t.flowTrace .main = s.flowTrace .main ++ es ∧ framesIn es = renderCalls i ∧ delaysIn es = delaysOf i ∧
      conversionsIn es = if usesConverter i then 1 else 0

/-! ## The wire and the LEDs -/

/-- The LEDs change only at a rise of LATCH (R122), on the device of R123. -/
def Obligations.LedsChangeOnlyAtALatchRise : Prop :=
  ∀ (d : Device) (e : Event), (d.see e).out ≠ d.out → e = .line .latch 1 ∧ d.latch = 0 ∧ (d.see e).out = d.sr

/-- After RENDER(p), LED k of the device of R123 is lit exactly if p[k] = 1, whatever notifications landed in the frame and whatever
the device held, if CLK was low (R121, R123, R125; the device's stages are the spec's general-knowledge passage G1, log 23). -/
def Obligations.LedsShowTheRenderedPattern : Prop :=
  ∀ (p : Pattern) (s : State) (d : Device), d.clk = 0 →
    ∃ t es, exec (.render p) s = .next t ∧ t.trace = s.trace ++ es ∧
      (∀ k < 8, (d.after es).lit k = p.getLsbD k) ∧ (d.after es).clk = 0

/-! ## Reset, invariant, whole-machine rules -/

/-- What reset leaves in every register (R50, R240; the values of CUR, the phase registers and the lines are the spec's decisions
D5, D6, D7, the places of the two sequencers D23 and D32). -/
def Obligations.ResetLeavesModeZeroAndAnEmptyFilter : Prop :=
  State.reset.mode = 0 ∧ (∀ a, Memory.read State.reset.buf a = 0) ∧ State.reset.sum = 0 ∧ State.reset.cur = 0 ∧
  State.reset.krPos = 0 ∧ State.reset.krDir = .up ∧ State.reset.ppW = 1 ∧ State.reset.ppDir = .grow ∧
  State.reset.wfLast = 0 ∧ State.reset.data = 0 ∧ State.reset.clk = 0 ∧ State.reset.latch = 0 ∧
  State.reset.seq = .atDispatch ∧ State.reset.hact = false

/-- The invariant of a state between two operations holds at reset (R23, R27, R121, R185). -/
def Obligations.InvariantHoldsAtReset : Prop := BetweenOperations State.reset

/-- Every step keeps it: MODE in the cycle, the ring buffer in canonical form, SUM the sum of the slots, the width in 1 to 4, CLK low,
SEQ at DISPATCH with nothing in flight (R23, R27, R31, R121, R134, R185). -/
def Obligations.EveryStepKeepsTheInvariant : Prop :=
  ∀ s t : State, BetweenOperations s → step s = .next t → BetweenOperations t

/-- No step from a state with the invariant stops: the only outcome is a next state, and the core cycles for ever (R31, R210;
no noise of EDGEs starves it, because the schedule is finite, log 2). -/
def Obligations.TheCoreNeverStops : Prop := ∀ s : State, BetweenOperations s → RunsForEver s

/-- The cycle never selects FLASH or DEFAULT: in a state with the invariant the selected operation is one of the thirteen (R145, R146). -/
def Obligations.FlashAndDefaultAreNeverSelected : Prop :=
  ∀ s : State, BetweenOperations s → selected s ≠ .flash ∧ ∀ m, selected s ≠ .default14 m ∧
    selected s ≠ .default16 m ∧ selected s ≠ .default32 m ∧ selected s ≠ .default64 m ∧ selected s ≠ .default128 m

/-- The first operation after reset is OFF, and the first 26 events are the frame of 0x00 (R241). -/
def Obligations.FirstFrameAfterResetIsDark : Prop :=
  ∃ t, step State.reset = .next t ∧ t.trace = serialFrame 0x00 ∧ t.mode = 0 ∧ t.seq = .atDispatch

/-- The main flow cannot learn of the handler: two states with the same main-flow part, however different in MODE, notifications and
button levels, have the same main-flow part after any operation (R76, R125, R148). -/
def Obligations.MainFlowIsIndependentOfTheHandler : Prop :=
  ∀ (i : Instr) (s s' t : State), mainView s = mainView s' → exec i s = .next t →
    ∃ t', exec i s' = .next t' ∧ mainView t' = mainView t

/-- The handler cannot learn of the main flow's data: two states with the same handler part and the same notification schedule have
the same handler part, and the same schedule, after the same operation, whatever the registers, samples and draws are (R76, R217). -/
def Obligations.HandlerIsIndependentOfTheMainFlow : Prop :=
  ∀ (i : Instr) (s s' t t' : State), handlerView s = handlerView s' → s.env.edges = s'.env.edges →
    exec i s = .next t → exec i s' = .next t' → handlerView t = handlerView t' ∧ t.env.edges = t'.env.edges
end

