-- ==== Sys2Proof/Laws/State.lean ====
section
/-! SUPPORT. What each named update of the state does to each field, one lemma per field per update, so that no proof
unfolds a record update; and the range of each word type. -/

namespace Sys2Proof.Machine

/-! ### The range of each width of R8, in numerals -/

theorem pattern_lt (p : Pattern) : p.toNat < 256 := p.isLt
theorem modeIndex_lt (m : ModeIndex) : m.toNat < 256 := m.isLt
theorem sample_lt (v : Sample) : v.toNat < 256 := v.isLt
theorem cursor_lt (c : Cursor) : c.toNat < 16 := c.isLt
theorem runningSum_lt (x : RunningSum) : x.toNat < 65536 := x.isLt
theorem raw_lt (r : Raw) : r.toNat < 1024 := r.isLt
theorem fwRise_lt (f : Nat) : (Config.fwRise f).val < 5 := (Config.fwRise f).isLt

/-! ### mainEvent -/

@[simp] theorem mainEvent_mode (e : Event) (s : State) : (s.mainEvent e).mode = s.mode := rfl
@[simp] theorem mainEvent_buf (e : Event) (s : State) : (s.mainEvent e).buf = s.buf := rfl
@[simp] theorem mainEvent_cur (e : Event) (s : State) : (s.mainEvent e).cur = s.cur := rfl
@[simp] theorem mainEvent_sum (e : Event) (s : State) : (s.mainEvent e).sum = s.sum := rfl
@[simp] theorem mainEvent_krPos (e : Event) (s : State) : (s.mainEvent e).krPos = s.krPos := rfl
@[simp] theorem mainEvent_krDir (e : Event) (s : State) : (s.mainEvent e).krDir = s.krDir := rfl
@[simp] theorem mainEvent_ppW (e : Event) (s : State) : (s.mainEvent e).ppW = s.ppW := rfl
@[simp] theorem mainEvent_ppDir (e : Event) (s : State) : (s.mainEvent e).ppDir = s.ppDir := rfl
@[simp] theorem mainEvent_wfLast (e : Event) (s : State) : (s.mainEvent e).wfLast = s.wfLast := rfl
@[simp] theorem mainEvent_data (e : Event) (s : State) : (s.mainEvent e).data = s.data := rfl
@[simp] theorem mainEvent_clk (e : Event) (s : State) : (s.mainEvent e).clk = s.clk := rfl
@[simp] theorem mainEvent_latch (e : Event) (s : State) : (s.mainEvent e).latch = s.latch := rfl
@[simp] theorem mainEvent_seq (e : Event) (s : State) : (s.mainEvent e).seq = s.seq.advance := rfl
@[simp] theorem mainEvent_hseq (e : Event) (s : State) : (s.mainEvent e).hseq = s.hseq := rfl
@[simp] theorem mainEvent_loc (e : Event) (s : State) : (s.mainEvent e).loc = s.loc := rfl
@[simp] theorem mainEvent_todo (e : Event) (s : State) : (s.mainEvent e).todo = s.todo := rfl
@[simp] theorem mainEvent_env (e : Event) (s : State) : (s.mainEvent e).env = s.env := rfl
@[simp] theorem mainEvent_log (e : Event) (s : State) : (s.mainEvent e).log = ⟨.main, e⟩ :: s.log := rfl

/-! ### handlerEvent -/

@[simp] theorem handlerEvent_mode (e : Event) (s : State) : (s.handlerEvent e).mode = s.mode := rfl
@[simp] theorem handlerEvent_buf (e : Event) (s : State) : (s.handlerEvent e).buf = s.buf := rfl
@[simp] theorem handlerEvent_cur (e : Event) (s : State) : (s.handlerEvent e).cur = s.cur := rfl
@[simp] theorem handlerEvent_sum (e : Event) (s : State) : (s.handlerEvent e).sum = s.sum := rfl
@[simp] theorem handlerEvent_krPos (e : Event) (s : State) : (s.handlerEvent e).krPos = s.krPos := rfl
@[simp] theorem handlerEvent_krDir (e : Event) (s : State) : (s.handlerEvent e).krDir = s.krDir := rfl
@[simp] theorem handlerEvent_ppW (e : Event) (s : State) : (s.handlerEvent e).ppW = s.ppW := rfl
@[simp] theorem handlerEvent_ppDir (e : Event) (s : State) : (s.handlerEvent e).ppDir = s.ppDir := rfl
@[simp] theorem handlerEvent_wfLast (e : Event) (s : State) : (s.handlerEvent e).wfLast = s.wfLast := rfl
@[simp] theorem handlerEvent_data (e : Event) (s : State) : (s.handlerEvent e).data = s.data := rfl
@[simp] theorem handlerEvent_clk (e : Event) (s : State) : (s.handlerEvent e).clk = s.clk := rfl
@[simp] theorem handlerEvent_latch (e : Event) (s : State) : (s.handlerEvent e).latch = s.latch := rfl
@[simp] theorem handlerEvent_seq (e : Event) (s : State) : (s.handlerEvent e).seq = s.seq := rfl
@[simp] theorem handlerEvent_hseq (e : Event) (s : State) : (s.handlerEvent e).hseq = s.hseq := rfl
@[simp] theorem handlerEvent_loc (e : Event) (s : State) : (s.handlerEvent e).loc = s.loc := rfl
@[simp] theorem handlerEvent_todo (e : Event) (s : State) : (s.handlerEvent e).todo = s.todo := rfl
@[simp] theorem handlerEvent_env (e : Event) (s : State) : (s.handlerEvent e).env = s.env := rfl
@[simp] theorem handlerEvent_log (e : Event) (s : State) : (s.handlerEvent e).log = ⟨.handler, e⟩ :: s.log := rfl

/-! ### withEdges -/

@[simp] theorem withEdges_mode (es : List Nat) (s : State) : (s.withEdges es).mode = s.mode := rfl
@[simp] theorem withEdges_buf (es : List Nat) (s : State) : (s.withEdges es).buf = s.buf := rfl
@[simp] theorem withEdges_cur (es : List Nat) (s : State) : (s.withEdges es).cur = s.cur := rfl
@[simp] theorem withEdges_sum (es : List Nat) (s : State) : (s.withEdges es).sum = s.sum := rfl
@[simp] theorem withEdges_krPos (es : List Nat) (s : State) : (s.withEdges es).krPos = s.krPos := rfl
@[simp] theorem withEdges_krDir (es : List Nat) (s : State) : (s.withEdges es).krDir = s.krDir := rfl
@[simp] theorem withEdges_ppW (es : List Nat) (s : State) : (s.withEdges es).ppW = s.ppW := rfl
@[simp] theorem withEdges_ppDir (es : List Nat) (s : State) : (s.withEdges es).ppDir = s.ppDir := rfl
@[simp] theorem withEdges_wfLast (es : List Nat) (s : State) : (s.withEdges es).wfLast = s.wfLast := rfl
@[simp] theorem withEdges_data (es : List Nat) (s : State) : (s.withEdges es).data = s.data := rfl
@[simp] theorem withEdges_clk (es : List Nat) (s : State) : (s.withEdges es).clk = s.clk := rfl
@[simp] theorem withEdges_latch (es : List Nat) (s : State) : (s.withEdges es).latch = s.latch := rfl
@[simp] theorem withEdges_seq (es : List Nat) (s : State) : (s.withEdges es).seq = s.seq := rfl
@[simp] theorem withEdges_hseq (es : List Nat) (s : State) : (s.withEdges es).hseq = s.hseq := rfl
@[simp] theorem withEdges_loc (es : List Nat) (s : State) : (s.withEdges es).loc = s.loc := rfl
@[simp] theorem withEdges_todo (es : List Nat) (s : State) : (s.withEdges es).todo = s.todo := rfl
@[simp] theorem withEdges_env (es : List Nat) (s : State) : (s.withEdges es).env = { s.env with edges := es } := rfl
@[simp] theorem withEdges_log (es : List Nat) (s : State) : (s.withEdges es).log = s.log := rfl

/-! ### movePassed -/

@[simp] theorem movePassed_mode (s : State) : s.movePassed.mode = s.mode := rfl
@[simp] theorem movePassed_buf (s : State) : s.movePassed.buf = s.buf := rfl
@[simp] theorem movePassed_cur (s : State) : s.movePassed.cur = s.cur := rfl
@[simp] theorem movePassed_sum (s : State) : s.movePassed.sum = s.sum := rfl
@[simp] theorem movePassed_krPos (s : State) : s.movePassed.krPos = s.krPos := rfl
@[simp] theorem movePassed_krDir (s : State) : s.movePassed.krDir = s.krDir := rfl
@[simp] theorem movePassed_ppW (s : State) : s.movePassed.ppW = s.ppW := rfl
@[simp] theorem movePassed_ppDir (s : State) : s.movePassed.ppDir = s.ppDir := rfl
@[simp] theorem movePassed_wfLast (s : State) : s.movePassed.wfLast = s.wfLast := rfl
@[simp] theorem movePassed_data (s : State) : s.movePassed.data = s.data := rfl
@[simp] theorem movePassed_clk (s : State) : s.movePassed.clk = s.clk := rfl
@[simp] theorem movePassed_latch (s : State) : s.movePassed.latch = s.latch := rfl
@[simp] theorem movePassed_seq (s : State) : s.movePassed.seq = s.seq := rfl
@[simp] theorem movePassed_hseq (s : State) : s.movePassed.hseq = s.hseq := rfl
@[simp] theorem movePassed_loc (s : State) : s.movePassed.loc = s.loc := rfl
@[simp] theorem movePassed_todo (s : State) : s.movePassed.todo = s.todo := rfl
@[simp] theorem movePassed_env (s : State) : s.movePassed.env = { s.env with edges := countDown s.env.edges } := rfl
@[simp] theorem movePassed_log (s : State) : s.movePassed.log = s.log := rfl

/-! ### handlerReturn -/

@[simp] theorem handlerReturn_mode (s : State) : (handlerReturn s).mode = s.mode := rfl
@[simp] theorem handlerReturn_buf (s : State) : (handlerReturn s).buf = s.buf := rfl
@[simp] theorem handlerReturn_cur (s : State) : (handlerReturn s).cur = s.cur := rfl
@[simp] theorem handlerReturn_sum (s : State) : (handlerReturn s).sum = s.sum := rfl
@[simp] theorem handlerReturn_krPos (s : State) : (handlerReturn s).krPos = s.krPos := rfl
@[simp] theorem handlerReturn_krDir (s : State) : (handlerReturn s).krDir = s.krDir := rfl
@[simp] theorem handlerReturn_ppW (s : State) : (handlerReturn s).ppW = s.ppW := rfl
@[simp] theorem handlerReturn_ppDir (s : State) : (handlerReturn s).ppDir = s.ppDir := rfl
@[simp] theorem handlerReturn_wfLast (s : State) : (handlerReturn s).wfLast = s.wfLast := rfl
@[simp] theorem handlerReturn_data (s : State) : (handlerReturn s).data = s.data := rfl
@[simp] theorem handlerReturn_clk (s : State) : (handlerReturn s).clk = s.clk := rfl
@[simp] theorem handlerReturn_latch (s : State) : (handlerReturn s).latch = s.latch := rfl
@[simp] theorem handlerReturn_seq (s : State) : (handlerReturn s).seq = s.seq := rfl
@[simp] theorem handlerReturn_hseq (s : State) : (handlerReturn s).hseq = .idle := rfl
@[simp] theorem handlerReturn_loc (s : State) : (handlerReturn s).loc = s.loc := rfl
@[simp] theorem handlerReturn_todo (s : State) : (handlerReturn s).todo = s.todo := rfl
@[simp] theorem handlerReturn_env (s : State) : (handlerReturn s).env = s.env := rfl
@[simp] theorem handlerReturn_log (s : State) : (handlerReturn s).log = s.log := rfl

/-! ### confirmEdge -/

@[simp] theorem confirmEdge_mode (s : State) : (confirmEdge s).mode = nextMode s.mode := rfl
@[simp] theorem confirmEdge_buf (s : State) : (confirmEdge s).buf = s.buf := rfl
@[simp] theorem confirmEdge_cur (s : State) : (confirmEdge s).cur = s.cur := rfl
@[simp] theorem confirmEdge_sum (s : State) : (confirmEdge s).sum = s.sum := rfl
@[simp] theorem confirmEdge_krPos (s : State) : (confirmEdge s).krPos = s.krPos := rfl
@[simp] theorem confirmEdge_krDir (s : State) : (confirmEdge s).krDir = s.krDir := rfl
@[simp] theorem confirmEdge_ppW (s : State) : (confirmEdge s).ppW = s.ppW := rfl
@[simp] theorem confirmEdge_ppDir (s : State) : (confirmEdge s).ppDir = s.ppDir := rfl
@[simp] theorem confirmEdge_wfLast (s : State) : (confirmEdge s).wfLast = s.wfLast := rfl
@[simp] theorem confirmEdge_data (s : State) : (confirmEdge s).data = s.data := rfl
@[simp] theorem confirmEdge_clk (s : State) : (confirmEdge s).clk = s.clk := rfl
@[simp] theorem confirmEdge_latch (s : State) : (confirmEdge s).latch = s.latch := rfl
@[simp] theorem confirmEdge_seq (s : State) : (confirmEdge s).seq = s.seq := rfl
@[simp] theorem confirmEdge_hseq (s : State) : (confirmEdge s).hseq = s.hseq := rfl
@[simp] theorem confirmEdge_loc (s : State) : (confirmEdge s).loc = s.loc := rfl
@[simp] theorem confirmEdge_todo (s : State) : (confirmEdge s).todo = s.todo := rfl
@[simp] theorem confirmEdge_env (s : State) : (confirmEdge s).env = s.env := rfl
@[simp] theorem confirmEdge_log (s : State) : (confirmEdge s).log = s.log := rfl

/-! ### endOperation -/

@[simp] theorem endOperation_mode (s : State) : (endOperation s).mode = s.mode := rfl
@[simp] theorem endOperation_buf (s : State) : (endOperation s).buf = s.buf := rfl
@[simp] theorem endOperation_cur (s : State) : (endOperation s).cur = s.cur := rfl
@[simp] theorem endOperation_sum (s : State) : (endOperation s).sum = s.sum := rfl
@[simp] theorem endOperation_krPos (s : State) : (endOperation s).krPos = s.krPos := rfl
@[simp] theorem endOperation_krDir (s : State) : (endOperation s).krDir = s.krDir := rfl
@[simp] theorem endOperation_ppW (s : State) : (endOperation s).ppW = s.ppW := rfl
@[simp] theorem endOperation_ppDir (s : State) : (endOperation s).ppDir = s.ppDir := rfl
@[simp] theorem endOperation_wfLast (s : State) : (endOperation s).wfLast = s.wfLast := rfl
@[simp] theorem endOperation_data (s : State) : (endOperation s).data = s.data := rfl
@[simp] theorem endOperation_clk (s : State) : (endOperation s).clk = s.clk := rfl
@[simp] theorem endOperation_latch (s : State) : (endOperation s).latch = s.latch := rfl
@[simp] theorem endOperation_seq (s : State) : (endOperation s).seq = .atDispatch := rfl
@[simp] theorem endOperation_hseq (s : State) : (endOperation s).hseq = s.hseq := rfl
@[simp] theorem endOperation_loc (s : State) : (endOperation s).loc = .none := rfl
@[simp] theorem endOperation_todo (s : State) : (endOperation s).todo = s.todo := rfl
@[simp] theorem endOperation_env (s : State) : (endOperation s).env = s.env := rfl
@[simp] theorem endOperation_log (s : State) : (endOperation s).log = s.log := rfl

/-! ### orDrawnBit -/

@[simp] theorem orDrawnBit_mode (s : State) : (orDrawnBit s).mode = s.mode := rfl
@[simp] theorem orDrawnBit_buf (s : State) : (orDrawnBit s).buf = s.buf := rfl
@[simp] theorem orDrawnBit_cur (s : State) : (orDrawnBit s).cur = s.cur := rfl
@[simp] theorem orDrawnBit_sum (s : State) : (orDrawnBit s).sum = s.sum := rfl
@[simp] theorem orDrawnBit_krPos (s : State) : (orDrawnBit s).krPos = s.krPos := rfl
@[simp] theorem orDrawnBit_krDir (s : State) : (orDrawnBit s).krDir = s.krDir := rfl
@[simp] theorem orDrawnBit_ppW (s : State) : (orDrawnBit s).ppW = s.ppW := rfl
@[simp] theorem orDrawnBit_ppDir (s : State) : (orDrawnBit s).ppDir = s.ppDir := rfl
@[simp] theorem orDrawnBit_wfLast (s : State) : (orDrawnBit s).wfLast = s.wfLast := rfl
@[simp] theorem orDrawnBit_data (s : State) : (orDrawnBit s).data = s.data := rfl
@[simp] theorem orDrawnBit_clk (s : State) : (orDrawnBit s).clk = s.clk := rfl
@[simp] theorem orDrawnBit_latch (s : State) : (orDrawnBit s).latch = s.latch := rfl
@[simp] theorem orDrawnBit_seq (s : State) : (orDrawnBit s).seq = s.seq := rfl
@[simp] theorem orDrawnBit_hseq (s : State) : (orDrawnBit s).hseq = s.hseq := rfl
@[simp] theorem orDrawnBit_loc (s : State) : (orDrawnBit s).loc = { s.loc with p := s.loc.p ||| oneHot s.loc.r.toNat } := rfl
@[simp] theorem orDrawnBit_todo (s : State) : (orDrawnBit s).todo = s.todo := rfl
@[simp] theorem orDrawnBit_env (s : State) : (orDrawnBit s).env = s.env := rfl
@[simp] theorem orDrawnBit_log (s : State) : (orDrawnBit s).log = s.log := rfl

/-! ### enter -/

@[simp] theorem enter_mode (op : ModeOp) (ms : List Move) (s : State) : (enter op ms s).mode = s.mode := rfl
@[simp] theorem enter_buf (op : ModeOp) (ms : List Move) (s : State) : (enter op ms s).buf = s.buf := rfl
@[simp] theorem enter_cur (op : ModeOp) (ms : List Move) (s : State) : (enter op ms s).cur = s.cur := rfl
@[simp] theorem enter_sum (op : ModeOp) (ms : List Move) (s : State) : (enter op ms s).sum = s.sum := rfl
@[simp] theorem enter_krPos (op : ModeOp) (ms : List Move) (s : State) : (enter op ms s).krPos = s.krPos := rfl
@[simp] theorem enter_krDir (op : ModeOp) (ms : List Move) (s : State) : (enter op ms s).krDir = s.krDir := rfl
@[simp] theorem enter_ppW (op : ModeOp) (ms : List Move) (s : State) : (enter op ms s).ppW = s.ppW := rfl
@[simp] theorem enter_ppDir (op : ModeOp) (ms : List Move) (s : State) : (enter op ms s).ppDir = s.ppDir := rfl
@[simp] theorem enter_wfLast (op : ModeOp) (ms : List Move) (s : State) : (enter op ms s).wfLast = s.wfLast := rfl
@[simp] theorem enter_data (op : ModeOp) (ms : List Move) (s : State) : (enter op ms s).data = s.data := rfl
@[simp] theorem enter_clk (op : ModeOp) (ms : List Move) (s : State) : (enter op ms s).clk = s.clk := rfl
@[simp] theorem enter_latch (op : ModeOp) (ms : List Move) (s : State) : (enter op ms s).latch = s.latch := rfl
@[simp] theorem enter_seq (op : ModeOp) (ms : List Move) (s : State) : (enter op ms s).seq = .running op 0 := rfl
@[simp] theorem enter_hseq (op : ModeOp) (ms : List Move) (s : State) : (enter op ms s).hseq = s.hseq := rfl
@[simp] theorem enter_loc (op : ModeOp) (ms : List Move) (s : State) : (enter op ms s).loc = .none := rfl
@[simp] theorem enter_todo (op : ModeOp) (ms : List Move) (s : State) : (enter op ms s).todo = ms := rfl
@[simp] theorem enter_env (op : ModeOp) (ms : List Move) (s : State) : (enter op ms s).env = s.env := rfl
@[simp] theorem enter_log (op : ModeOp) (ms : List Move) (s : State) : (enter op ms s).log = s.log := rfl

/-! ### popEdge -/

@[simp] theorem popEdge_mode (s : State) : s.popEdge.mode = s.mode := rfl
@[simp] theorem popEdge_buf (s : State) : s.popEdge.buf = s.buf := rfl
@[simp] theorem popEdge_cur (s : State) : s.popEdge.cur = s.cur := rfl
@[simp] theorem popEdge_sum (s : State) : s.popEdge.sum = s.sum := rfl
@[simp] theorem popEdge_krPos (s : State) : s.popEdge.krPos = s.krPos := rfl
@[simp] theorem popEdge_krDir (s : State) : s.popEdge.krDir = s.krDir := rfl
@[simp] theorem popEdge_ppW (s : State) : s.popEdge.ppW = s.ppW := rfl
@[simp] theorem popEdge_ppDir (s : State) : s.popEdge.ppDir = s.ppDir := rfl
@[simp] theorem popEdge_wfLast (s : State) : s.popEdge.wfLast = s.wfLast := rfl
@[simp] theorem popEdge_data (s : State) : s.popEdge.data = s.data := rfl
@[simp] theorem popEdge_clk (s : State) : s.popEdge.clk = s.clk := rfl
@[simp] theorem popEdge_latch (s : State) : s.popEdge.latch = s.latch := rfl
@[simp] theorem popEdge_seq (s : State) : s.popEdge.seq = s.seq := rfl
@[simp] theorem popEdge_hseq (s : State) : s.popEdge.hseq = s.hseq := rfl
@[simp] theorem popEdge_loc (s : State) : s.popEdge.loc = s.loc := rfl
@[simp] theorem popEdge_todo (s : State) : s.popEdge.todo = s.todo := rfl
@[simp] theorem popEdge_env (s : State) : s.popEdge.env = { s.env with edges := s.env.edges.tail } := rfl
@[simp] theorem popEdge_log (s : State) : s.popEdge.log = s.log := rfl

/-! ### setLine -/

@[simp] theorem setLine_mode (l : Line) (b : Bit) (s : State) : (s.setLine l b).mode = s.mode := by cases l <;> rfl
@[simp] theorem setLine_buf (l : Line) (b : Bit) (s : State) : (s.setLine l b).buf = s.buf := by cases l <;> rfl
@[simp] theorem setLine_cur (l : Line) (b : Bit) (s : State) : (s.setLine l b).cur = s.cur := by cases l <;> rfl
@[simp] theorem setLine_sum (l : Line) (b : Bit) (s : State) : (s.setLine l b).sum = s.sum := by cases l <;> rfl
@[simp] theorem setLine_krPos (l : Line) (b : Bit) (s : State) : (s.setLine l b).krPos = s.krPos := by cases l <;> rfl
@[simp] theorem setLine_krDir (l : Line) (b : Bit) (s : State) : (s.setLine l b).krDir = s.krDir := by cases l <;> rfl
@[simp] theorem setLine_ppW (l : Line) (b : Bit) (s : State) : (s.setLine l b).ppW = s.ppW := by cases l <;> rfl
@[simp] theorem setLine_ppDir (l : Line) (b : Bit) (s : State) : (s.setLine l b).ppDir = s.ppDir := by cases l <;> rfl
@[simp] theorem setLine_wfLast (l : Line) (b : Bit) (s : State) : (s.setLine l b).wfLast = s.wfLast := by cases l <;> rfl
@[simp] theorem setLine_seq (l : Line) (b : Bit) (s : State) : (s.setLine l b).seq = s.seq := by cases l <;> rfl
@[simp] theorem setLine_hseq (l : Line) (b : Bit) (s : State) : (s.setLine l b).hseq = s.hseq := by cases l <;> rfl
@[simp] theorem setLine_loc (l : Line) (b : Bit) (s : State) : (s.setLine l b).loc = s.loc := by cases l <;> rfl
@[simp] theorem setLine_todo (l : Line) (b : Bit) (s : State) : (s.setLine l b).todo = s.todo := by cases l <;> rfl
@[simp] theorem setLine_env (l : Line) (b : Bit) (s : State) : (s.setLine l b).env = s.env := by cases l <;> rfl
@[simp] theorem setLine_log (l : Line) (b : Bit) (s : State) : (s.setLine l b).log = s.log := by cases l <;> rfl
@[simp] theorem setLine_data_data (b : Bit) (s : State) : (s.setLine .data b).data = b := rfl
@[simp] theorem setLine_data_clk (b : Bit) (s : State) : (s.setLine .data b).clk = s.clk := rfl
@[simp] theorem setLine_data_latch (b : Bit) (s : State) : (s.setLine .data b).latch = s.latch := rfl
@[simp] theorem setLine_clk_data (b : Bit) (s : State) : (s.setLine .clk b).data = s.data := rfl
@[simp] theorem setLine_clk_clk (b : Bit) (s : State) : (s.setLine .clk b).clk = b := rfl
@[simp] theorem setLine_clk_latch (b : Bit) (s : State) : (s.setLine .clk b).latch = s.latch := rfl
@[simp] theorem setLine_latch_data (b : Bit) (s : State) : (s.setLine .latch b).data = s.data := rfl
@[simp] theorem setLine_latch_clk (b : Bit) (s : State) : (s.setLine .latch b).clk = s.clk := rfl
@[simp] theorem setLine_latch_latch (b : Bit) (s : State) : (s.setLine .latch b).latch = b := rfl

/-! ### takeRaw -/

@[simp] theorem takeRaw_mode (s : State) : s.takeRaw.mode = s.mode := by unfold State.takeRaw; split <;> rfl
@[simp] theorem takeRaw_buf (s : State) : s.takeRaw.buf = s.buf := by unfold State.takeRaw; split <;> rfl
@[simp] theorem takeRaw_cur (s : State) : s.takeRaw.cur = s.cur := by unfold State.takeRaw; split <;> rfl
@[simp] theorem takeRaw_sum (s : State) : s.takeRaw.sum = s.sum := by unfold State.takeRaw; split <;> rfl
@[simp] theorem takeRaw_krPos (s : State) : s.takeRaw.krPos = s.krPos := by unfold State.takeRaw; split <;> rfl
@[simp] theorem takeRaw_krDir (s : State) : s.takeRaw.krDir = s.krDir := by unfold State.takeRaw; split <;> rfl
@[simp] theorem takeRaw_ppW (s : State) : s.takeRaw.ppW = s.ppW := by unfold State.takeRaw; split <;> rfl
@[simp] theorem takeRaw_ppDir (s : State) : s.takeRaw.ppDir = s.ppDir := by unfold State.takeRaw; split <;> rfl
@[simp] theorem takeRaw_wfLast (s : State) : s.takeRaw.wfLast = s.wfLast := by unfold State.takeRaw; split <;> rfl
@[simp] theorem takeRaw_data (s : State) : s.takeRaw.data = s.data := by unfold State.takeRaw; split <;> rfl
@[simp] theorem takeRaw_clk (s : State) : s.takeRaw.clk = s.clk := by unfold State.takeRaw; split <;> rfl
@[simp] theorem takeRaw_latch (s : State) : s.takeRaw.latch = s.latch := by unfold State.takeRaw; split <;> rfl
@[simp] theorem takeRaw_seq (s : State) : s.takeRaw.seq = s.seq := by unfold State.takeRaw; split <;> rfl
@[simp] theorem takeRaw_hseq (s : State) : s.takeRaw.hseq = s.hseq := by unfold State.takeRaw; split <;> rfl
@[simp] theorem takeRaw_loc (s : State) : s.takeRaw.loc = s.loc := by unfold State.takeRaw; split <;> rfl
@[simp] theorem takeRaw_todo (s : State) : s.takeRaw.todo = s.todo := by unfold State.takeRaw; split <;> rfl
@[simp] theorem takeRaw_log (s : State) : s.takeRaw.log = s.log := by unfold State.takeRaw; split <;> rfl
@[simp] theorem takeRaw_env_rnd (s : State) : s.takeRaw.env.rnd = s.env.rnd := by unfold State.takeRaw; split <;> rfl
@[simp] theorem takeRaw_env_btn (s : State) : s.takeRaw.env.btn = s.env.btn := by unfold State.takeRaw; split <;> rfl
@[simp] theorem takeRaw_env_edges (s : State) : s.takeRaw.env.edges = s.env.edges := by unfold State.takeRaw; split <;> rfl
@[simp] theorem takeRaw_env_rndCount (s : State) : s.takeRaw.env.rndCount = s.env.rndCount := by unfold State.takeRaw; split <;> rfl
@[simp] theorem takeRaw_env_btnCount (s : State) : s.takeRaw.env.btnCount = s.env.btnCount := by unfold State.takeRaw; split <;> rfl

/-! ### takeCoin -/

@[simp] theorem takeCoin_mode (s : State) : s.takeCoin.mode = s.mode := by unfold State.takeCoin; split <;> rfl
@[simp] theorem takeCoin_buf (s : State) : s.takeCoin.buf = s.buf := by unfold State.takeCoin; split <;> rfl
@[simp] theorem takeCoin_cur (s : State) : s.takeCoin.cur = s.cur := by unfold State.takeCoin; split <;> rfl
@[simp] theorem takeCoin_sum (s : State) : s.takeCoin.sum = s.sum := by unfold State.takeCoin; split <;> rfl
@[simp] theorem takeCoin_krPos (s : State) : s.takeCoin.krPos = s.krPos := by unfold State.takeCoin; split <;> rfl
@[simp] theorem takeCoin_krDir (s : State) : s.takeCoin.krDir = s.krDir := by unfold State.takeCoin; split <;> rfl
@[simp] theorem takeCoin_ppW (s : State) : s.takeCoin.ppW = s.ppW := by unfold State.takeCoin; split <;> rfl
@[simp] theorem takeCoin_ppDir (s : State) : s.takeCoin.ppDir = s.ppDir := by unfold State.takeCoin; split <;> rfl
@[simp] theorem takeCoin_wfLast (s : State) : s.takeCoin.wfLast = s.wfLast := by unfold State.takeCoin; split <;> rfl
@[simp] theorem takeCoin_data (s : State) : s.takeCoin.data = s.data := by unfold State.takeCoin; split <;> rfl
@[simp] theorem takeCoin_clk (s : State) : s.takeCoin.clk = s.clk := by unfold State.takeCoin; split <;> rfl
@[simp] theorem takeCoin_latch (s : State) : s.takeCoin.latch = s.latch := by unfold State.takeCoin; split <;> rfl
@[simp] theorem takeCoin_seq (s : State) : s.takeCoin.seq = s.seq := by unfold State.takeCoin; split <;> rfl
@[simp] theorem takeCoin_hseq (s : State) : s.takeCoin.hseq = s.hseq := by unfold State.takeCoin; split <;> rfl
@[simp] theorem takeCoin_loc (s : State) : s.takeCoin.loc = s.loc := by unfold State.takeCoin; split <;> rfl
@[simp] theorem takeCoin_todo (s : State) : s.takeCoin.todo = s.todo := by unfold State.takeCoin; split <;> rfl
@[simp] theorem takeCoin_log (s : State) : s.takeCoin.log = s.log := by unfold State.takeCoin; split <;> rfl
@[simp] theorem takeCoin_env_adc (s : State) : s.takeCoin.env.adc = s.env.adc := by unfold State.takeCoin; split <;> rfl
@[simp] theorem takeCoin_env_btn (s : State) : s.takeCoin.env.btn = s.env.btn := by unfold State.takeCoin; split <;> rfl
@[simp] theorem takeCoin_env_edges (s : State) : s.takeCoin.env.edges = s.env.edges := by unfold State.takeCoin; split <;> rfl
@[simp] theorem takeCoin_env_adcCount (s : State) : s.takeCoin.env.adcCount = s.env.adcCount := by unfold State.takeCoin; split <;> rfl
@[simp] theorem takeCoin_env_btnCount (s : State) : s.takeCoin.env.btnCount = s.env.btnCount := by unfold State.takeCoin; split <;> rfl

/-! ### takeIndex -/

@[simp] theorem takeIndex_mode (s : State) : s.takeIndex.mode = s.mode := by unfold State.takeIndex; split <;> rfl
@[simp] theorem takeIndex_buf (s : State) : s.takeIndex.buf = s.buf := by unfold State.takeIndex; split <;> rfl
@[simp] theorem takeIndex_cur (s : State) : s.takeIndex.cur = s.cur := by unfold State.takeIndex; split <;> rfl
@[simp] theorem takeIndex_sum (s : State) : s.takeIndex.sum = s.sum := by unfold State.takeIndex; split <;> rfl
@[simp] theorem takeIndex_krPos (s : State) : s.takeIndex.krPos = s.krPos := by unfold State.takeIndex; split <;> rfl
@[simp] theorem takeIndex_krDir (s : State) : s.takeIndex.krDir = s.krDir := by unfold State.takeIndex; split <;> rfl
@[simp] theorem takeIndex_ppW (s : State) : s.takeIndex.ppW = s.ppW := by unfold State.takeIndex; split <;> rfl
@[simp] theorem takeIndex_ppDir (s : State) : s.takeIndex.ppDir = s.ppDir := by unfold State.takeIndex; split <;> rfl
@[simp] theorem takeIndex_wfLast (s : State) : s.takeIndex.wfLast = s.wfLast := by unfold State.takeIndex; split <;> rfl
@[simp] theorem takeIndex_data (s : State) : s.takeIndex.data = s.data := by unfold State.takeIndex; split <;> rfl
@[simp] theorem takeIndex_clk (s : State) : s.takeIndex.clk = s.clk := by unfold State.takeIndex; split <;> rfl
@[simp] theorem takeIndex_latch (s : State) : s.takeIndex.latch = s.latch := by unfold State.takeIndex; split <;> rfl
@[simp] theorem takeIndex_seq (s : State) : s.takeIndex.seq = s.seq := by unfold State.takeIndex; split <;> rfl
@[simp] theorem takeIndex_hseq (s : State) : s.takeIndex.hseq = s.hseq := by unfold State.takeIndex; split <;> rfl
@[simp] theorem takeIndex_loc (s : State) : s.takeIndex.loc = s.loc := by unfold State.takeIndex; split <;> rfl
@[simp] theorem takeIndex_todo (s : State) : s.takeIndex.todo = s.todo := by unfold State.takeIndex; split <;> rfl
@[simp] theorem takeIndex_log (s : State) : s.takeIndex.log = s.log := by unfold State.takeIndex; split <;> rfl
@[simp] theorem takeIndex_env_adc (s : State) : s.takeIndex.env.adc = s.env.adc := by unfold State.takeIndex; split <;> rfl
@[simp] theorem takeIndex_env_btn (s : State) : s.takeIndex.env.btn = s.env.btn := by unfold State.takeIndex; split <;> rfl
@[simp] theorem takeIndex_env_edges (s : State) : s.takeIndex.env.edges = s.env.edges := by unfold State.takeIndex; split <;> rfl
@[simp] theorem takeIndex_env_adcCount (s : State) : s.takeIndex.env.adcCount = s.env.adcCount := by unfold State.takeIndex; split <;> rfl
@[simp] theorem takeIndex_env_btnCount (s : State) : s.takeIndex.env.btnCount = s.env.btnCount := by unfold State.takeIndex; split <;> rfl

/-! ### takeLevel -/

@[simp] theorem takeLevel_mode (s : State) : s.takeLevel.mode = s.mode := by unfold State.takeLevel; split <;> rfl
@[simp] theorem takeLevel_buf (s : State) : s.takeLevel.buf = s.buf := by unfold State.takeLevel; split <;> rfl
@[simp] theorem takeLevel_cur (s : State) : s.takeLevel.cur = s.cur := by unfold State.takeLevel; split <;> rfl
@[simp] theorem takeLevel_sum (s : State) : s.takeLevel.sum = s.sum := by unfold State.takeLevel; split <;> rfl
@[simp] theorem takeLevel_krPos (s : State) : s.takeLevel.krPos = s.krPos := by unfold State.takeLevel; split <;> rfl
@[simp] theorem takeLevel_krDir (s : State) : s.takeLevel.krDir = s.krDir := by unfold State.takeLevel; split <;> rfl
@[simp] theorem takeLevel_ppW (s : State) : s.takeLevel.ppW = s.ppW := by unfold State.takeLevel; split <;> rfl
@[simp] theorem takeLevel_ppDir (s : State) : s.takeLevel.ppDir = s.ppDir := by unfold State.takeLevel; split <;> rfl
@[simp] theorem takeLevel_wfLast (s : State) : s.takeLevel.wfLast = s.wfLast := by unfold State.takeLevel; split <;> rfl
@[simp] theorem takeLevel_data (s : State) : s.takeLevel.data = s.data := by unfold State.takeLevel; split <;> rfl
@[simp] theorem takeLevel_clk (s : State) : s.takeLevel.clk = s.clk := by unfold State.takeLevel; split <;> rfl
@[simp] theorem takeLevel_latch (s : State) : s.takeLevel.latch = s.latch := by unfold State.takeLevel; split <;> rfl
@[simp] theorem takeLevel_seq (s : State) : s.takeLevel.seq = s.seq := by unfold State.takeLevel; split <;> rfl
@[simp] theorem takeLevel_hseq (s : State) : s.takeLevel.hseq = s.hseq := by unfold State.takeLevel; split <;> rfl
@[simp] theorem takeLevel_loc (s : State) : s.takeLevel.loc = s.loc := by unfold State.takeLevel; split <;> rfl
@[simp] theorem takeLevel_todo (s : State) : s.takeLevel.todo = s.todo := by unfold State.takeLevel; split <;> rfl
@[simp] theorem takeLevel_log (s : State) : s.takeLevel.log = s.log := by unfold State.takeLevel; split <;> rfl
@[simp] theorem takeLevel_env_adc (s : State) : s.takeLevel.env.adc = s.env.adc := by unfold State.takeLevel; split <;> rfl
@[simp] theorem takeLevel_env_rnd (s : State) : s.takeLevel.env.rnd = s.env.rnd := by unfold State.takeLevel; split <;> rfl
@[simp] theorem takeLevel_env_edges (s : State) : s.takeLevel.env.edges = s.env.edges := by unfold State.takeLevel; split <;> rfl
@[simp] theorem takeLevel_env_adcCount (s : State) : s.takeLevel.env.adcCount = s.env.adcCount := by unfold State.takeLevel; split <;> rfl
@[simp] theorem takeLevel_env_rndCount (s : State) : s.takeLevel.env.rndCount = s.env.rndCount := by unfold State.takeLevel; split <;> rfl

/-! ### takeEdge -/

@[simp] theorem takeEdge_mode (s : State) : (takeEdge s).mode = s.mode := by unfold takeEdge; split <;> rfl
@[simp] theorem takeEdge_buf (s : State) : (takeEdge s).buf = s.buf := by unfold takeEdge; split <;> rfl
@[simp] theorem takeEdge_cur (s : State) : (takeEdge s).cur = s.cur := by unfold takeEdge; split <;> rfl
@[simp] theorem takeEdge_sum (s : State) : (takeEdge s).sum = s.sum := by unfold takeEdge; split <;> rfl
@[simp] theorem takeEdge_krPos (s : State) : (takeEdge s).krPos = s.krPos := by unfold takeEdge; split <;> rfl
@[simp] theorem takeEdge_krDir (s : State) : (takeEdge s).krDir = s.krDir := by unfold takeEdge; split <;> rfl
@[simp] theorem takeEdge_ppW (s : State) : (takeEdge s).ppW = s.ppW := by unfold takeEdge; split <;> rfl
@[simp] theorem takeEdge_ppDir (s : State) : (takeEdge s).ppDir = s.ppDir := by unfold takeEdge; split <;> rfl
@[simp] theorem takeEdge_wfLast (s : State) : (takeEdge s).wfLast = s.wfLast := by unfold takeEdge; split <;> rfl
@[simp] theorem takeEdge_data (s : State) : (takeEdge s).data = s.data := by unfold takeEdge; split <;> rfl
@[simp] theorem takeEdge_clk (s : State) : (takeEdge s).clk = s.clk := by unfold takeEdge; split <;> rfl
@[simp] theorem takeEdge_latch (s : State) : (takeEdge s).latch = s.latch := by unfold takeEdge; split <;> rfl
@[simp] theorem takeEdge_seq (s : State) : (takeEdge s).seq = s.seq := by unfold takeEdge; split <;> rfl
@[simp] theorem takeEdge_loc (s : State) : (takeEdge s).loc = s.loc := by unfold takeEdge; split <;> rfl
@[simp] theorem takeEdge_todo (s : State) : (takeEdge s).todo = s.todo := by unfold takeEdge; split <;> rfl
@[simp] theorem takeEdge_env (s : State) : (takeEdge s).env = s.env := by unfold takeEdge; split <;> rfl
@[simp] theorem takeEdge_log (s : State) : (takeEdge s).log = s.log := by unfold takeEdge; split <;> rfl

end Sys2Proof.Machine
end

