-- ==== Sys2Proof/Laws/Run.lean ====
section
/-! SUPPORT. Running an operation to its end: what one move can touch, that the budget of ticks suffices, and that what the
main flow does is the same whichever notifications land in it (R76, R125, R217). -/

namespace Sys2Proof.Machine

/-! ## What one move of the main flow can touch -/

@[simp] theorem doMove_mode (m : Move) (s : State) : (doMove m s).mode = s.mode := by
  cases m <;> simp [doMove, driveLine, convert, drawCoin, drawIndex]
  split <;> simp

@[simp] theorem doMove_hseq (m : Move) (s : State) : (doMove m s).hseq = s.hseq := by
  cases m <;> simp [doMove, driveLine, convert, drawCoin, drawIndex]
  split <;> simp

@[simp] theorem doMove_todo (m : Move) (s : State) : (doMove m s).todo = s.todo := by
  cases m <;> simp [doMove, driveLine, convert, drawCoin, drawIndex]
  split <;> simp

@[simp] theorem doMove_edges (m : Move) (s : State) : (doMove m s).env.edges = s.env.edges := by
  cases m <;> simp [doMove, driveLine, convert, drawCoin, drawIndex]
  split <;> simp

@[simp] theorem doMove_btn (m : Move) (s : State) : (doMove m s).env.btn = s.env.btn := by
  cases m <;> simp [doMove, driveLine, convert, drawCoin, drawIndex]
  split <;> simp

@[simp] theorem doMove_btnCount (m : Move) (s : State) : (doMove m s).env.btnCount = s.env.btnCount := by
  cases m <;> simp [doMove, driveLine, convert, drawCoin, drawIndex]
  split <;> simp

/-- The local list of moves still to come has no influence on a move. -/
theorem doMove_withTodo (m : Move) (s : State) (t : List Move) :
    doMove m { s with todo := t } = { doMove m s with todo := t } := by
  cases m with
  | line l b => cases l <;> rfl
  | dataBit i => rfl
  | delay ms => rfl
  | adcConvert =>
    simp only [doMove, convert, State.nextRaw, State.takeRaw, State.mainEvent]
    split <;> rfl
  | drawCoin =>
    simp only [doMove, drawCoin, State.nextCoin, State.takeCoin, State.mainEvent]
    split <;> rfl
  | drawIndex =>
    simp only [doMove, drawIndex, State.nextIndex, State.takeIndex, State.mainEvent]
    split <;> rfl
  | sparkleIndex =>
    simp only [doMove]
    split
    · simp only [drawIndex, orDrawnBit, State.nextIndex, State.takeIndex, State.mainEvent]
      split <;> rfl
    · rfl
  | pattern k => cases k <;> rfl
  | fuRead => rfl
  | fuSub => rfl
  | fuStore => rfl
  | fuAdd => rfl
  | fuAdvance => rfl
  | fuReturn => rfl
  | krFlip => rfl
  | krMove => rfl
  | ppFlip => rfl
  | ppMove => rfl
  | wfStore => rfl
  | finish => rfl

theorem mainEntries_main (e : Event) (l : List Entry) : mainEntries (⟨.main, e⟩ :: l) = ⟨.main, e⟩ :: mainEntries l := by
  simp [mainEntries]

theorem mainEntries_handler (e : Event) (l : List Entry) : mainEntries (⟨.handler, e⟩ :: l) = mainEntries l := by
  simp [mainEntries]

/-- A move of the main flow reads nothing the handler owns: it does to the main flow's part what it does to the whole. -/
theorem mainView_doMove (m : Move) (s : State) : mainView (doMove m s) = doMove m (mainView s) := by
  cases m with
  | line l b => cases l <;> simp [doMove, driveLine, State.setLine, State.mainEvent, mainView, mainEntries_main]
  | dataBit i => simp [doMove, driveLine, State.setLine, State.mainEvent, mainView, mainEntries_main]
  | delay ms => simp [doMove, State.mainEvent, mainView, mainEntries_main]
  | adcConvert =>
    simp only [doMove, convert, State.nextRaw, State.takeRaw, State.mainEvent, mainView]
    split <;> simp [mainEntries_main]
  | drawCoin =>
    simp only [doMove, drawCoin, State.nextCoin, State.takeCoin, State.mainEvent, mainView]
    split <;> simp [mainEntries_main]
  | drawIndex =>
    simp only [doMove, drawIndex, State.nextIndex, State.takeIndex, State.mainEvent, mainView]
    split <;> simp [mainEntries_main]
  | sparkleIndex =>
    simp only [doMove]
    have hc : (mainView s).loc.c = s.loc.c := rfl
    rw [hc]
    split
    · simp only [drawIndex, orDrawnBit, State.nextIndex, State.takeIndex, State.mainEvent, mainView]
      split <;> simp [mainEntries_main]
    · rfl
  | pattern k => cases k <;> rfl
  | fuRead => rfl
  | fuSub => rfl
  | fuStore => rfl
  | fuAdd => rfl
  | fuAdvance => rfl
  | fuReturn => rfl
  | krFlip => rfl
  | krMove => rfl
  | ppFlip => rfl
  | ppMove => rfl
  | wfStore => rfl
  | finish => rfl

/-! ## What the handler and the notifications can touch -/

theorem mainView_takeEdge (s : State) : mainView (takeEdge s) = mainView s := by
  unfold takeEdge; split <;> rfl

theorem mainView_withEdges (es : List Nat) (s : State) : mainView (s.withEdges es) = mainView s := rfl

theorem mainView_sampleLevel (s : State) : mainView (sampleLevel s) = mainView s := by
  simp only [sampleLevel, State.takeLevel, State.handlerEvent, mainView]
  split <;> simp [mainEntries_handler]

theorem mainView_withHseq (h : HandlerPlace) (s : State) : mainView { s with hseq := h } = mainView s := rfl

theorem mainView_confirmEdge (s : State) : mainView (confirmEdge s) = mainView s := rfl

/-- The handler touches nothing of the main flow's (R217). -/
theorem mainView_handlerMove (s : State) : mainView (handlerMove s) = mainView s := by
  unfold handlerMove handlerReturn
  split
  · rfl
  · split <;> rw [mainView_withHseq, mainView_sampleLevel]
  · rw [mainView_withHseq]; simp [State.handlerEvent, mainView, mainEntries_handler]
  · split
    · rw [mainView_withHseq, mainView_confirmEdge, mainView_sampleLevel]
    · rw [mainView_withHseq, mainView_sampleLevel]

theorem mainView_deliverFrom : ∀ (es : List Nat) (s : State), mainView (deliverFrom es s) = mainView s
  | [], _ => rfl
  | 0 :: es, s => by rw [deliverFrom, mainView_deliverFrom es, mainView_takeEdge]
  | (n + 1) :: es, s => by rw [deliverFrom]; rfl; simp

theorem mainView_deliver (s : State) : mainView (deliver s) = mainView s := mainView_deliverFrom _ s

/-- The arrival of EDGEs leaves the operation in flight where it is (R215). -/
theorem deliverFrom_todo : ∀ (es : List Nat) (s : State), (deliverFrom es s).todo = s.todo
  | [], _ => rfl
  | 0 :: es, s => by rw [deliverFrom, deliverFrom_todo es, takeEdge_todo]
  | (n + 1) :: es, s => by rw [deliverFrom]; rfl; simp

@[simp] theorem deliver_todo (s : State) : (deliver s).todo = s.todo := deliverFrom_todo _ s

theorem sampleLevel_todo (s : State) : (sampleLevel s).todo = s.todo := by simp [sampleLevel]

theorem sampleLevel_edges (s : State) : (sampleLevel s).env.edges = s.env.edges := by simp [sampleLevel]

@[simp] theorem handlerMove_todo (s : State) : (handlerMove s).todo = s.todo := by
  unfold handlerMove
  split
  · rfl
  · split <;> simp [sampleLevel_todo]
  · rfl
  · split <;> simp [sampleLevel_todo]

@[simp] theorem handlerMove_edges (s : State) : (handlerMove s).env.edges = s.env.edges := by
  unfold handlerMove
  split
  · rfl
  · split <;> simp [sampleLevel_edges]
  · rfl
  · split <;> simp [sampleLevel_edges]

/-- The handler makes progress: its places come in order (R32). -/
theorem handlerMove_left (s : State) (h : s.hact = true) : (handlerMove s).hseq.left < s.hseq.left := by
  unfold handlerMove
  cases hs : s.hseq with
  | idle => simp [State.hact, hs, HandlerPlace.active] at h
  | firstCheck => simp only; split <;> simp [HandlerPlace.left]
  | debounce => simp [HandlerPlace.left]
  | secondCheck => simp only; split <;> simp [HandlerPlace.left]

/-! ## The budget of ticks suffices -/

theorem deliverFrom_budget : ∀ (es : List Nat) (s : State),
    3 * (deliverFrom es s).env.edges.length + (deliverFrom es s).hseq.left ≤ 3 * es.length + s.hseq.left
  | [], s => by rw [deliverFrom]; simp; simp
  | 0 :: es, s => by
    rw [deliverFrom]
    have ih := deliverFrom_budget es (takeEdge s)
    have ht : (takeEdge s).hseq.left ≤ s.hseq.left + 3 := by
      unfold takeEdge; split <;> simp [HandlerPlace.left]
    simp only [List.length_cons]; omega
  | (n + 1) :: es, s => by rw [deliverFrom]; simp; simp

theorem deliver_budget (s : State) : budget (deliver s) ≤ budget s := by
  have h := deliverFrom_budget s.env.edges s
  simp only [budget, deliver_todo]
  unfold deliver
  omega

theorem countDown_length (es : List Nat) : (countDown es).length = es.length := by cases es <;> rfl

theorem movePassed_budget (s : State) : budget s.movePassed = budget s := by
  simp [budget, countDown_length]

/-- Every tick brings the operation in flight nearer to its end. -/
theorem tick_budget (s : State) (h : s.todo ≠ []) : budget (tick s) < budget s := by
  have hd := deliver_budget s
  unfold tick
  simp only [movePassed_budget]
  split
  · rename_i ha
    have hl := handlerMove_left _ ha
    simp only [budget, handlerMove_todo, handlerMove_edges] at hd ⊢
    omega
  · obtain ⟨m, ms, hm⟩ := List.exists_cons_of_ne_nil h
    have hm' : (deliver s).todo = m :: ms := by rw [deliver_todo, hm]
    simp only [mainMove, hm', budget, doMove_todo, doMove_edges, doMove_hseq] at hd ⊢
    simp only [List.length_cons] at hd
    omega

/-- With enough ticks the operation in flight has no move left (R148: it runs to completion). -/
theorem run_todo : ∀ (n : Nat) (s : State), budget s ≤ n → (run n s).todo = []
  | 0, s, h => by
    have : s.todo.length = 0 := by simp only [budget] at h; omega
    simpa [run] using this
  | n + 1, s, h => by
    rw [run]
    split
    · rename_i he; simpa using he
    · rename_i he
      have hne : s.todo ≠ [] := by simpa using he
      exact run_todo n (tick s) (by have := tick_budget s hne; omega)

@[simp] theorem runToEnd_todo (s : State) : (runToEnd s).todo = [] := run_todo _ s (Nat.le_refl _)

/-- A run of the machine whose first step answers a next state is the run from there. -/
theorem coreRun_next (M : Host.Core) (n : Nat) (s t : M.State) (h : M.step s = .next t) : M.run (n + 1) s = M.run n t := by
  show (match M.step s with | .next u => M.run n u | .fault r => .fault r | .refused r => .refused r) = _
  rw [h]

/-! ## The main flow's part of a run does not depend on the notifications -/

theorem doMoves_nil (s : State) : doMoves [] s = s := rfl

theorem doMoves_cons (m : Move) (ms : List Move) (s : State) : doMoves (m :: ms) s = doMoves ms (doMove m s) := rfl

theorem doMoves_append (l k : List Move) (s : State) : doMoves (l ++ k) s = doMoves k (doMoves l s) := by
  simp [doMoves]

theorem doMoves_withTodo (t : List Move) : ∀ (ms : List Move) (s : State),
    doMoves ms { s with todo := t } = { doMoves ms s with todo := t }
  | [], _ => rfl
  | m :: ms, s => by rw [doMoves_cons, doMove_withTodo, doMoves_withTodo t ms]; rfl

theorem mainView_withTodo (t : List Move) (s : State) : mainView { s with todo := t } = { mainView s with todo := t } := rfl

theorem tick_mainView (s : State) :
    ((deliver s).hact = true ∧ mainView (tick s) = mainView s) ∨
    ((deliver s).hact = false ∧ mainView (tick s) = mainMove (mainView s)) := by
  by_cases h : (deliver s).hact = true
  · refine .inl ⟨h, ?_⟩
    simp only [tick, h, if_true, State.movePassed, mainView_withEdges, mainView_handlerMove, mainView_deliver]
  · refine .inr ⟨by simpa using h, ?_⟩
    simp only [tick, h, State.movePassed, mainView_withEdges]
    have ht : (mainView s).todo = (deliver s).todo := by rw [deliver_todo]; rfl
    unfold mainMove
    rw [ht]
    cases (deliver s).todo with
    | nil => exact mainView_deliver s
    | cons m ms => simp [mainView_doMove, mainView_withTodo, mainView_deliver]

/-- THE PREEMPTION LAW (R76, R125): whatever notifications land in an operation and whatever the handler does, the main flow's
part of the result is what the operation's moves make of the main flow's part at the start. -/
theorem run_mainView : ∀ (n : Nat) (s : State), budget s ≤ n →
    mainView (run n s) = { doMoves s.todo (mainView s) with todo := [] }
  | 0, s, h => by
    have h0 : s.todo.length = 0 := by simp only [budget] at h; omega
    have h1 : s.todo = [] := List.eq_nil_of_length_eq_zero h0
    rw [run, h1, doMoves_nil, ← h1]; rfl
  | n + 1, s, h => by
    rw [run]
    split
    · rename_i he
      have h1 : s.todo = [] := by simpa using he
      rw [h1, doMoves_nil, ← h1]; rfl
    · rename_i he
      have hne : s.todo ≠ [] := by simpa using he
      rw [run_mainView n (tick s) (by have := tick_budget s hne; omega)]
      have htodo : (mainView (tick s)).todo = (tick s).todo := rfl
      rcases tick_mainView s with ⟨-, hv⟩ | ⟨-, hv⟩
      · rw [← htodo, hv]; rfl
      · rw [← htodo, hv]
        obtain ⟨m, ms, hm⟩ := List.exists_cons_of_ne_nil hne
        have hmv : (mainView s).todo = m :: ms := hm
        simp only [mainMove, hmv, hm, doMoves_cons, doMove_withTodo, doMoves_withTodo]

theorem runToEnd_mainView (s : State) :
    mainView (runToEnd s) = { doMoves s.todo (mainView s) with todo := [] } := run_mainView _ s (Nat.le_refl _)

/-- What a mode operation does to the main flow's part of the state. -/
theorem perform_mainView (op : ModeOp) (ms : List Move) (s : State) :
    mainView (perform op ms s) = { doMoves ms (mainView (enter op ms s)) with todo := [] } := runToEnd_mainView _

/-- What an internal operation does to the main flow's part of the state. -/
theorem inPlace_mainView (ms : List Move) (s : State) : mainView (inPlace ms s) = doMoves ms (mainView s) := by
  have h := runToEnd_mainView { s with todo := ms }
  have e : mainView (inPlace ms s) = { mainView (runToEnd { s with todo := ms }) with todo := s.todo } := rfl
  rw [e, h]
  have h2 := doMoves_withTodo ms ms (mainView s)
  have h3 := doMoves_withTodo s.todo ms (mainView s)
  have h4 : mainView { s with todo := ms } = { mainView s with todo := ms } := rfl
  rw [h4, h2]
  exact h3.symm

end Sys2Proof.Machine
end

