-- ==== Sys2Proof/Laws/Effects.lean ====
section
/-! SUPPORT. One lemma per group of moves: what RENDER, SAMPLE, FUPDATE and a whole mode operation's moves make of a state,
in the words of Safety.lean. -/

namespace Sys2Proof.Machine

/-! ## SEQ and the log -/

theorem Seq.advanceBy_zero (q : Seq) : q.advanceBy 0 = q := by cases q <;> rfl

theorem Seq.advance_eq (q : Seq) : q.advance = q.advanceBy 1 := by cases q <;> rfl

theorem Seq.advanceBy_add (q : Seq) (m n : Nat) : (q.advanceBy m).advanceBy n = q.advanceBy (m + n) := by
  cases q <;> simp [Seq.advanceBy, Nat.add_assoc]

theorem mainLog_append (a b : List Event) : mainLog (a ++ b) = mainLog b ++ mainLog a := by simp [mainLog]

theorem mainLog_cons (e : Event) (es : List Event) : mainLog (e :: es) = mainLog es ++ [⟨.main, e⟩] := by simp [mainLog]

theorem mainLog_nil : mainLog [] = [] := rfl

theorem afterEvents_append (a b : List Event) (s : State) : afterEvents (a ++ b) s = afterEvents b (afterEvents a s) := by
  simp [afterEvents, mainLog_append]

theorem afterEvents_nil (s : State) : afterEvents [] s = s := rfl

/-- The events of a run of the main flow stand at the end of its trace. -/
theorem flowTrace_afterEvents (es : List Event) (s : State) :
    (afterEvents es s).flowTrace .main = s.flowTrace .main ++ es := by
  simp [State.flowTrace, afterEvents, mainLog, List.filter_append, List.filter_reverse, List.filter_map,
    Function.comp_def]

/-! ## RENDER, SAMPLE, FUPDATE -/

/-- RENDER's moves: the lines and the frame of R92, 26 events (R120). -/
theorem doMoves_renderMoves (s : State) :
    doMoves renderMoves s = { afterRender s.loc.p s with seq := s.seq.advanceBy 26 } := by
  cases hs : s.seq <;>
    simp [renderMoves, doMoves, doMove, driveLine, State.setLine, State.mainEvent, afterRender, afterEvents, serialFrame,
      bitEvents, mainLog, List.range, List.range.loop, hs, Seq.advance, Seq.advanceBy]

/-- Computing a pattern and rendering it. -/
theorem doMoves_showMoves (k : PatternRule) (s : State) :
    doMoves (showMoves k) s =
      { afterRender (patternOf k s) s with seq := s.seq.advanceBy 26, loc := { s.loc with p := patternOf k s } } := by
  rw [showMoves, doMoves_cons, doMoves_renderMoves]; rfl

/-- No move stands between the frame and the end (D22). -/
@[simp] theorem doMoves_postRenderMoves (s : State) : doMoves postRenderMoves s = s := rfl

/-- A frame: render and wait. -/
theorem doMoves_frameMoves (k : PatternRule) (ms : Nat) (s : State) :
    doMoves (frameMoves k ms) s =
      { afterDelay ms (afterRender (patternOf k s) s) with
        seq := s.seq.advanceBy 27, loc := { s.loc with p := patternOf k s } } := by
  rw [frameMoves, doMoves_append, doMoves_showMoves, doMoves_cons, doMoves_nil]
  cases hs : s.seq <;>
    simp [doMove, State.mainEvent, afterDelay, afterEvents, mainLog, hs, Seq.advance, Seq.advanceBy, afterRender]

/-- SAMPLE's move (R130). -/
theorem doMoves_sampleMoves (s : State) :
    doMoves sampleMoves s =
      { afterConvert s with seq := s.seq.advanceBy 1, loc := { s.loc with s := sampleOf s.nextRaw } } := by
  simp only [sampleMoves, doMoves_cons, doMoves_nil, doMove, convert, afterConvert, afterEvents, State.mainEvent,
    mainLog_cons, mainLog_nil, Seq.advance_eq, takeRaw_loc, takeRaw_seq, takeRaw_log]
  rfl

theorem nextCursor_eq (c : Cursor) : nextCursor c = c + 1 := by
  apply BitVec.eq_of_toNat_eq
  have h := c.isLt
  simp [nextCursor, trunc, BitVec.toNat_add]

/-- FUPDATE's moves, on the local sample (R133). -/
theorem doMoves_fupdateMoves (s : State) :
    doMoves fupdateMoves s =
      { afterFilter s.loc.s s with
        loc := { s.loc with old := Memory.read s.buf s.cur.toNat, avg := averageOf (afterFilter s.loc.s s).sum } } := by
  simp [fupdateMoves, doMoves, doMove, afterFilter, nextCursor_eq]

/-! ## At rest: what is left of a state when SEQ, the local values and the moves in flight are put aside

With these, a whole operation is computed without ever writing a state out in full. -/

@[simp] theorem atRest_atRest (s : State) : atRest (atRest s) = atRest s := rfl
@[simp] theorem atRest_afterEvents (es : List Event) (s : State) : atRest (afterEvents es s) = afterEvents es (atRest s) := rfl
@[simp] theorem atRest_afterRender (p : Pattern) (s : State) : atRest (afterRender p s) = afterRender p (atRest s) := rfl
@[simp] theorem atRest_afterDelay (ms : Nat) (s : State) : atRest (afterDelay ms s) = afterDelay ms (atRest s) := rfl
@[simp] theorem atRest_afterFilter (v : Sample) (s : State) : atRest (afterFilter v s) = afterFilter v (atRest s) := rfl
@[simp] theorem atRest_nextRaw (s : State) : (atRest s).nextRaw = s.nextRaw := rfl
@[simp] theorem atRest_nextIndex (s : State) : (atRest s).nextIndex = s.nextIndex := rfl
@[simp] theorem atRest_enter (op : ModeOp) (ms : List Move) (s : State) : atRest (enter op ms s) = atRest s := rfl
@[simp] theorem atRest_withSeqLoc (q : Seq) (l : Locals) (s : State) : atRest { s with seq := q, loc := l } = atRest s := rfl
@[simp] theorem atRest_withLoc (l : Locals) (s : State) : atRest { s with loc := l } = atRest s := rfl
@[simp] theorem atRest_withTodo (t : List Move) (s : State) : atRest { s with todo := t } = atRest s := rfl

@[simp] theorem atRest_takeRaw (s : State) : atRest s.takeRaw = (atRest s).takeRaw := by
  cases h : s.env.adc <;> simp [State.takeRaw, atRest, h]

@[simp] theorem atRest_afterConvert (s : State) : atRest (afterConvert s) = afterConvert (atRest s) := by
  rw [afterConvert, atRest_afterEvents, atRest_takeRaw]; rfl

theorem atRest_showMoves (k : PatternRule) (s : State) :
    atRest (doMoves (showMoves k) s) = afterRender (patternOf k s) (atRest s) := by
  rw [doMoves_showMoves, atRest_withSeqLoc, atRest_afterRender]

theorem atRest_frameMoves (k : PatternRule) (ms : Nat) (s : State) :
    atRest (doMoves (frameMoves k ms) s) = afterDelay ms (afterRender (patternOf k s) (atRest s)) := by
  rw [doMoves_frameMoves, atRest_withSeqLoc, atRest_afterDelay, atRest_afterRender]

theorem atRest_sampleMoves (s : State) : atRest (doMoves sampleMoves s) = afterConvert (atRest s) := by
  rw [doMoves_sampleMoves, atRest_withSeqLoc, atRest_afterConvert]

theorem sampleMoves_loc (s : State) : (doMoves sampleMoves s).loc = { s.loc with s := sampleOf s.nextRaw } := by
  rw [doMoves_sampleMoves]

theorem atRest_fupdateMoves (s : State) : atRest (doMoves fupdateMoves s) = afterFilter s.loc.s (atRest s) := by
  rw [doMoves_fupdateMoves, atRest_withLoc, atRest_afterFilter]

theorem fupdateMoves_avg (s : State) : (doMoves fupdateMoves s).loc.avg = averageOf (afterFilter s.loc.s (atRest s)).sum := by
  rw [doMoves_fupdateMoves]; rfl

/-- The registers a pattern rule reads are at hand at rest too. -/
theorem atRest_fields (s t : State) (h : atRest s = atRest t) :
    s.wfLast = t.wfLast ∧ s.krPos = t.krPos ∧ s.krDir = t.krDir ∧ s.ppW = t.ppW ∧ s.ppDir = t.ppDir ∧ s.buf = t.buf ∧
      s.cur = t.cur ∧ s.sum = t.sum ∧ s.data = t.data ∧ s.clk = t.clk ∧ s.latch = t.latch ∧ s.env = t.env ∧ s.log = t.log := by
  simp only [atRest, State.mk.injEq] at h
  tauto

/-- A mode operation whose moves end with `finish` leaves the main flow at rest. -/
theorem perform_finish (op : ModeOp) (ms : List Move) (s : State) :
    mainView (perform op (ms ++ [.finish]) s) = atRest (doMoves ms (enter op (ms ++ [.finish]) (mainView s))) := by
  rw [perform_mainView, doMoves_append]; rfl

/-- What an operation of the default branch makes of the main flow's part: one conversion, one filter update, and the frame of
its pattern rule on the new average (R161). -/
theorem perform_composite (op : ModeOp) (k : PatternRule) (f : Sample → Pattern) (hk : ∀ u, patternOf k u = f u.loc.avg)
    (s : State) :
    mainView (perform op (compositeMoves k) s) =
      afterRender (f (averageOf (afterFilter (sampleOf s.nextRaw) (afterConvert (atRest (mainView s)))).sum))
        (afterFilter (sampleOf s.nextRaw) (afterConvert (atRest (mainView s)))) := by
  rw [compositeMoves, perform_finish, compositeFront, doMoves_append, doMoves_append, doMoves_append,
    doMoves_postRenderMoves, atRest_showMoves,
    atRest_fupdateMoves, atRest_sampleMoves, hk, fupdateMoves_avg, sampleMoves_loc, atRest_sampleMoves, atRest_enter]
  rfl

/-! ## The main flow's part of a state -/

theorem mainView_afterEvents (es : List Event) (s : State) : mainView (afterEvents es s) = afterEvents es (mainView s) := by
  simp [mainView, afterEvents, mainEntries, mainLog, List.filter_append, List.filter_reverse, List.filter_map,
    Function.comp_def]

theorem mainView_idem (s : State) : mainView (mainView s) = mainView s := by
  simp [mainView, mainEntries, List.filter_filter]

@[simp] theorem mainView_loc (s : State) : (mainView s).loc = s.loc := rfl
@[simp] theorem mainView_nextRaw (s : State) : (mainView s).nextRaw = s.nextRaw := rfl
@[simp] theorem mainView_nextIndex (s : State) : (mainView s).nextIndex = s.nextIndex := rfl
@[simp] theorem mainView_nextCoin (s : State) : (mainView s).nextCoin = s.nextCoin := rfl
@[simp] theorem mainView_seq (s : State) : (mainView s).seq = s.seq := rfl
@[simp] theorem mainView_todo (s : State) : (mainView s).todo = s.todo := rfl
@[simp] theorem mainView_buf (s : State) : (mainView s).buf = s.buf := rfl
@[simp] theorem mainView_cur (s : State) : (mainView s).cur = s.cur := rfl
@[simp] theorem mainView_sum (s : State) : (mainView s).sum = s.sum := rfl
@[simp] theorem mainView_krPos (s : State) : (mainView s).krPos = s.krPos := rfl
@[simp] theorem mainView_krDir (s : State) : (mainView s).krDir = s.krDir := rfl
@[simp] theorem mainView_ppW (s : State) : (mainView s).ppW = s.ppW := rfl
@[simp] theorem mainView_ppDir (s : State) : (mainView s).ppDir = s.ppDir := rfl
@[simp] theorem mainView_wfLast (s : State) : (mainView s).wfLast = s.wfLast := rfl
@[simp] theorem mainView_data (s : State) : (mainView s).data = s.data := rfl
@[simp] theorem mainView_clk (s : State) : (mainView s).clk = s.clk := rfl
@[simp] theorem mainView_latch (s : State) : (mainView s).latch = s.latch := rfl

/-- DISPATCH's entry seen from the main flow. -/
theorem mainView_enter (op : ModeOp) (ms : List Move) (s : State) : mainView (enter op ms s) = enter op ms (mainView s) := rfl

end Sys2Proof.Machine
end

