-- ==== Sys2Proof/Laws/Handler.lean ====
section
/-! SUPPORT. The handler: the EDGEs that arrive while it runs, its ticks, its runs, and what it leaves (R44, R214 to R221). -/

namespace Sys2Proof.Machine

/-! ## The arrival of EDGEs -/

theorem takeEdge_active (s : State) (h : s.hact = true) : takeEdge s = s := by simp [takeEdge, h]

/-- While HACT = 1 every EDGE due is discarded: only the schedule moves on (R219). -/
theorem deliverFrom_active : ∀ (es : List Nat) (s : State), s.hact = true → ∃ es', es'.length ≤ es.length ∧ deliverFrom es s = s.withEdges es'
  | [], s, _ => ⟨[], Nat.le_refl _, by rw [deliverFrom]; simp⟩
  | 0 :: es, s, h => by
    rw [deliverFrom, takeEdge_active s h]
    obtain ⟨es', hl, he⟩ := deliverFrom_active es s h
    exact ⟨es', by simp only [List.length_cons]; omega, he⟩
  | (n + 1) :: es, s, _ => ⟨(n + 1) :: es, Nat.le_refl _, by rw [deliverFrom]; simp⟩

/-- With no EDGE due, delivery changes nothing. -/
theorem deliver_none (s : State) (h : s.env.edges.head? ≠ some 0) : deliver s = s := by
  unfold deliver
  cases he : s.env.edges with
  | nil => rw [deliverFrom]; rw [← he]; rfl; simp
  | cons n es =>
    cases n with
    | zero => simp [he] at h
    | succ n => rw [deliverFrom]; rw [← he]; rfl; simp

/-- A due EDGE starts the handler while it is idle (R44); those behind it that are due too are discarded. -/
theorem deliver_due (s : State) (es : List Nat) (hh : s.hseq = .idle) (h : s.env.edges = 0 :: es) :
    ∃ es', es'.length ≤ es.length ∧ deliver s = ({ s with hseq := .firstCheck }).withEdges es' := by
  unfold deliver
  rw [h, deliverFrom]
  have e : takeEdge s = { s with hseq := .firstCheck } := by simp [takeEdge, State.hact, hh, HandlerPlace.active]
  rw [e]
  exact deliverFrom_active es _ rfl

/-! ## One tick while the handler runs -/

@[simp] theorem nextLevel_withEdges (es : List Nat) (s : State) : (s.withEdges es).nextLevel = s.nextLevel := rfl

theorem handlerMove_withEdges (es : List Nat) (s : State) : handlerMove (s.withEdges es) = (handlerMove s).withEdges es := by
  unfold handlerMove
  simp only [withEdges_hseq, nextLevel_withEdges]
  have h : sampleLevel (s.withEdges es) = (sampleLevel s).withEdges es := by
    simp only [sampleLevel, State.takeLevel, State.nextLevel, State.handlerEvent, withEdges_env]
    split <;> rfl
  split
  · rfl
  · by_cases hc : s.nextLevel = 0 <;> simp only [hc, if_true, if_false, h] <;> rfl
  · rfl
  · by_cases hc : s.nextLevel = 0 <;> simp only [hc, if_true, if_false, h] <;> rfl

/-- A tick while HACT = 1 is the handler's move; the schedule moves on and no EDGE of it is kept that was not there. -/
theorem tick_active (s : State) (h : s.hact = true) :
    ∃ es', es'.length ≤ s.env.edges.length ∧ tick s = (handlerMove s).withEdges es' := by
  obtain ⟨es', hl, he⟩ := deliverFrom_active s.env.edges s h
  refine ⟨countDown es', by rw [countDown_length]; exact hl, ?_⟩
  have hd : deliver s = s.withEdges es' := he
  have ha : (s.withEdges es').hact = true := h
  simp only [tick, hd, ha, if_true, handlerMove_withEdges]
  rfl

/-- A tick with HACT = 0 and no EDGE due is the main flow's move. -/
theorem tick_idle (s : State) (hh : s.hact = false) (h : s.env.edges.head? ≠ some 0) :
    tick s = (mainMove s).movePassed := by
  simp [tick, deliver_none s h, hh]

/-! ## A whole run of the handler -/

/-- What a run of the handler from its first check makes of a state: the three event sequences of R214. -/
def handlerRun (s : State) : State :=
  if s.nextLevel = 0 then
    if s.takeLevel.nextLevel = 0 then
      confirmEdge (sampleLevel ((sampleLevel s).handlerEvent (.delay params.debounceMs)))
    else sampleLevel ((sampleLevel s).handlerEvent (.delay params.debounceMs))
  else sampleLevel s

theorem runHandler_idle (n : Nat) (s : State) (h : s.hact = false) : runHandler n s = s := by
  cases n with
  | zero => rfl
  | succ n => simp [runHandler, h]

theorem runHandler_active (n : Nat) (s : State) (h : s.hact = true) : runHandler (n + 1) s = runHandler n (tick s) := by
  simp [runHandler, h]

theorem withEdges_withEdges (a b : List Nat) (s : State) : (s.withEdges a).withEdges b = s.withEdges b := rfl

theorem hact_withHseq (h : HandlerPlace) (s : State) : ({ s with hseq := h } : State).hact = h.active := rfl
theorem hact_withEdges (es : List Nat) (s : State) : (s.withEdges es).hact = s.hact := rfl

theorem sampleLevel_withEdges (es : List Nat) (s : State) : sampleLevel (s.withEdges es) = (sampleLevel s).withEdges es := by
  simp only [sampleLevel, State.takeLevel, State.nextLevel, State.handlerEvent, withEdges_env]
  split <;> rfl
theorem sampleLevel_withHseq (h : HandlerPlace) (s : State) : sampleLevel { s with hseq := h } = { sampleLevel s with hseq := h } := by
  simp only [sampleLevel, State.takeLevel, State.nextLevel, State.handlerEvent]
  split <;> rfl

/-- A whole handler run, in one equation. -/
theorem handlerToEnd_firstCheck (s : State) :
    ∃ es, es.length ≤ s.env.edges.length ∧
      handlerToEnd { s with hseq := .firstCheck } = { (handlerRun s).withEdges es with hseq := .idle } := by
  unfold handlerToEnd
  show ∃ es, _ ∧ runHandler 3 _ = _
  rw [runHandler_active _ _ rfl]
  obtain ⟨e1, hl1, h1⟩ := tick_active { s with hseq := .firstCheck } rfl
  rw [h1]
  have n1 : ({ s with hseq := .firstCheck } : State).nextLevel = s.nextLevel := rfl
  by_cases hc : s.nextLevel = 0
  · have m1 : handlerMove { s with hseq := .firstCheck } = { sampleLevel s with hseq := .debounce } := by
      simp only [handlerMove, n1, hc, if_true, sampleLevel_withHseq]
    rw [m1, runHandler_active _ _ rfl]
    obtain ⟨e2, hl2, h2⟩ := tick_active (State.withEdges e1 { sampleLevel s with hseq := .debounce }) rfl
    rw [h2, handlerMove_withEdges, withEdges_withEdges]
    have m2 : handlerMove { sampleLevel s with hseq := .debounce } = { (sampleLevel s).handlerEvent (.delay params.debounceMs) with hseq := .secondCheck } := rfl
    rw [m2, runHandler_active _ _ rfl]
    obtain ⟨e3, hl3, h3⟩ := tick_active (State.withEdges e2 { (sampleLevel s).handlerEvent (.delay params.debounceMs) with hseq := .secondCheck }) rfl
    rw [h3, handlerMove_withEdges, withEdges_withEdges]
    have n3 : (({ (sampleLevel s).handlerEvent (.delay params.debounceMs) with hseq := .secondCheck } : State)).nextLevel = s.takeLevel.nextLevel := rfl
    refine ⟨e3, ?_, ?_⟩
    · simp only [withEdges_env] at hl2 hl3
      have : ({ s with hseq := .firstCheck } : State).env.edges.length = s.env.edges.length := rfl
      omega
    · simp only [handlerMove, n3, handlerRun, hc, if_true, sampleLevel_withHseq]
      split <;> rw [runHandler_idle] <;> rfl
  · have m1 : handlerMove { s with hseq := .firstCheck } = { sampleLevel s with hseq := .idle } := by
      simp only [handlerMove, n1, hc, if_false, sampleLevel_withHseq]; rfl
    rw [m1]
    refine ⟨e1, hl1, ?_⟩
    rw [runHandler_idle _ _ rfl]
    simp only [handlerRun, hc, if_false]; rfl

/-! ## Bounce inside a run -/

/-- While HACT = 1 delivery drops the EDGEs due, and no wait on the schedule grows. -/
theorem deliverFrom_active_sum (es : List Nat) (s : State) (h : s.hact = true) : ∃ es', es'.sum = es.sum ∧ (es' = [] ∨ ∃ n r, es' = (n+1) :: r) ∧ deliverFrom es s = s.withEdges es' := by
  induction es with
  | nil => exact ⟨[], rfl, .inl rfl, by rw [deliverFrom]; simp⟩
  | cons n es ih =>
    cases n with
    | zero => rw [deliverFrom, takeEdge_active s h]; obtain ⟨es', h1, h2⟩ := ih; exact ⟨es', by simpa using h1, h2⟩
    | succ n => exact ⟨(n+1)::es, rfl, .inr ⟨n, es, rfl⟩, by rw [deliverFrom]; simp⟩

/-- A tick while HACT = 1 is the handler's move and brings the whole schedule one move nearer. -/
theorem tick_active_sum (s : State) (h : s.hact = true) : ∃ es', (es' = [] ∨ es'.sum + 1 ≤ s.env.edges.sum) ∧ tick s = (handlerMove s).withEdges es' := by
  obtain ⟨es', h1, h2, he⟩ := deliverFrom_active_sum s.env.edges s h
  refine ⟨countDown es', ?_, ?_⟩
  · rcases h2 with rfl | ⟨n, r, rfl⟩
    · left; rfl
    · right; simp [countDown] at h1 ⊢; omega
  · have hd : deliver s = s.withEdges es' := he
    have ha : (s.withEdges es').hact = true := h
    simp only [tick, hd, ha, if_true, handlerMove_withEdges]
    rfl

/-- A whole handler run whose bounce arrives inside it: every EDGE on the schedule is discarded (R219). -/
theorem handlerToEnd_bounce (s : State) (hb : s.env.edges.sum ≤ if s.nextLevel = 0 then 2 else 0) :
      handlerToEnd { s with hseq := .firstCheck } = { (handlerRun s).withEdges [] with hseq := .idle } := by
  unfold handlerToEnd
  show runHandler 3 _ = _
  rw [runHandler_active _ _ rfl]
  obtain ⟨e1, hl1, h1⟩ := tick_active_sum { s with hseq := .firstCheck } rfl
  rw [h1]
  have n1 : ({ s with hseq := .firstCheck } : State).nextLevel = s.nextLevel := rfl
  have q1 : e1 = [] ∨ e1.sum + 1 ≤ s.env.edges.sum := hl1
  by_cases hc : s.nextLevel = 0
  · rw [if_pos hc] at hb
    have m1 : handlerMove { s with hseq := .firstCheck } = { sampleLevel s with hseq := .debounce } := by
      simp only [handlerMove, n1, hc, if_true, sampleLevel_withHseq]
    rw [m1, runHandler_active _ _ rfl]
    obtain ⟨e2, hl2, h2⟩ := tick_active_sum (State.withEdges e1 { sampleLevel s with hseq := .debounce }) rfl
    have q2 : e2 = [] ∨ e2.sum + 1 ≤ e1.sum := hl2
    rw [h2, handlerMove_withEdges, withEdges_withEdges]
    have m2 : handlerMove { sampleLevel s with hseq := .debounce } = { (sampleLevel s).handlerEvent (.delay params.debounceMs) with hseq := .secondCheck } := rfl
    rw [m2, runHandler_active _ _ rfl]
    obtain ⟨e3, hl3, h3⟩ := tick_active_sum (State.withEdges e2 { (sampleLevel s).handlerEvent (.delay params.debounceMs) with hseq := .secondCheck }) rfl
    have q3 : e3 = [] ∨ e3.sum + 1 ≤ e2.sum := hl3
    have z : e3 = [] := by
      rcases q3 with h | h
      · exact h
      · rcases q2 with rfl | h2
        · simp at h
        · rcases q1 with rfl | h1
          · simp at h2
          · omega
    rw [h3, handlerMove_withEdges, withEdges_withEdges, z]
    have n3 : (({ (sampleLevel s).handlerEvent (.delay params.debounceMs) with hseq := .secondCheck } : State)).nextLevel = s.takeLevel.nextLevel := rfl
    simp only [handlerMove, n3, handlerRun, hc, if_true, sampleLevel_withHseq]
    split <;> rw [runHandler_idle] <;> rfl
  · rw [if_neg hc] at hb
    have z : e1 = [] := by rcases q1 with h | h; exact h; omega
    have m1 : handlerMove { s with hseq := .firstCheck } = { sampleLevel s with hseq := .idle } := by
      simp only [handlerMove, n1, hc, if_false, sampleLevel_withHseq]; rfl
    rw [m1, runHandler_idle _ _ rfl, z]
    simp only [handlerRun, hc, if_false]; rfl

end Sys2Proof.Machine
end

