-- ==== Sys2Proof/Laws/Memory.lean ====
section
/-! SUPPORT. The ring-buffer space: read after write, the canonical form is kept by every write, and what a write does to the
sum of the cells. -/

namespace Sys2Proof.Machine

theorem Memory.read_of_wfFrom {lo i : Nat} : ∀ {m : Memory}, Memory.wfFrom lo m = true → i < lo → Memory.read m i = 0
  | [], _, _ => rfl
  | (a, v) :: rest, h, hi => by
    simp only [Memory.wfFrom, Bool.and_eq_true, decide_eq_true_eq] at h
    simp only [Memory.read, if_neg (show a ≠ i by omega)]
    exact Memory.read_of_wfFrom h.2 (by omega)

theorem Memory.read_drop_same {lo i : Nat} :
    ∀ {m : Memory}, Memory.wfFrom lo m = true → Memory.read (Memory.drop m i) i = 0
  | [], _ => rfl
  | (a, v) :: rest, h => by
    simp only [Memory.wfFrom, Bool.and_eq_true, decide_eq_true_eq] at h
    by_cases ha : a = i
    · subst ha
      simpa [Memory.drop] using Memory.read_of_wfFrom h.2 (by omega)
    · simpa [Memory.drop, ha, Memory.read] using Memory.read_drop_same h.2

theorem Memory.read_drop_other {i j : Nat} (hij : j ≠ i) :
    ∀ {m : Memory}, Memory.read (Memory.drop m i) j = Memory.read m j
  | [] => rfl
  | (a, v) :: rest => by
    by_cases ha : a = i
    · subst ha; simp [Memory.drop, Memory.read, hij.symm]
    · simp [Memory.drop, ha, Memory.read, Memory.read_drop_other hij]

theorem Memory.read_insert_same {i : Nat} {v : Sample} : ∀ {m : Memory}, Memory.read (Memory.insert m i v) i = v
  | [] => by simp [Memory.insert, Memory.read]
  | (a, w) :: rest => by
    by_cases h1 : i < a
    · simp [Memory.insert, h1, Memory.read]
    · by_cases h2 : a = i
      · simp [Memory.insert, h2, Memory.read]
      · simp [Memory.insert, h1, h2, Memory.read, Memory.read_insert_same]

theorem Memory.read_insert_other {i j : Nat} {v : Sample} (hij : j ≠ i) :
    ∀ {m : Memory}, Memory.read (Memory.insert m i v) j = Memory.read m j
  | [] => by simp [Memory.insert, Memory.read, hij.symm]
  | (a, w) :: rest => by
    by_cases h1 : i < a
    · simp [Memory.insert, h1, Memory.read, hij.symm]
    · by_cases h2 : a = i
      · simp [Memory.insert, h2, Memory.read, hij.symm]
      · simp [Memory.insert, h1, h2, Memory.read, Memory.read_insert_other hij]

/-- A write followed by a read of the same cell returns the value written (R61). -/
theorem Memory.read_write_same {m : Memory} {i : Nat} {v : Sample} (h : Memory.wf m = true) :
    Memory.read (Memory.write m i v) i = v := by
  unfold Memory.write
  split
  · rename_i hv
    rw [Memory.read_drop_same h, hv]; rfl
  · exact Memory.read_insert_same

/-- A write leaves every other cell alone. -/
theorem Memory.read_write_other {m : Memory} {i j : Nat} {v : Sample} (hij : j ≠ i) :
    Memory.read (Memory.write m i v) j = Memory.read m j := by
  unfold Memory.write
  split
  · exact Memory.read_drop_other hij
  · exact Memory.read_insert_other hij

theorem Memory.wfFrom_mono {lo lo' : Nat} (hl : lo' ≤ lo) :
    ∀ {m : Memory}, Memory.wfFrom lo m = true → Memory.wfFrom lo' m = true
  | [], _ => rfl
  | (a, v) :: rest, h => by
    simp only [Memory.wfFrom, Bool.and_eq_true, decide_eq_true_eq] at h ⊢
    exact ⟨⟨⟨by omega, h.1.1.2⟩, h.1.2⟩, h.2⟩

theorem Memory.wfFrom_drop {lo i : Nat} :
    ∀ {m : Memory}, Memory.wfFrom lo m = true → Memory.wfFrom lo (Memory.drop m i) = true
  | [], _ => rfl
  | (a, v) :: rest, h => by
    simp only [Memory.wfFrom, Bool.and_eq_true, decide_eq_true_eq] at h
    by_cases ha : a = i
    · simpa [Memory.drop, ha] using Memory.wfFrom_mono (show lo ≤ a + 1 by omega) h.2
    · simp only [Memory.drop, if_neg ha, Memory.wfFrom, Bool.and_eq_true, decide_eq_true_eq]
      exact ⟨h.1, Memory.wfFrom_drop h.2⟩

theorem Memory.wfFrom_insert {i : Nat} {v : Sample} (hv : v ≠ Memory.unlisted) (hi : i < 16) :
    ∀ {lo : Nat} {m : Memory}, lo ≤ i → Memory.wfFrom lo m = true → Memory.wfFrom lo (Memory.insert m i v) = true
  | lo, [], hl, _ => by simp [Memory.insert, Memory.wfFrom, hl, hi, hv]
  | lo, (a, w) :: rest, hl, h => by
    simp only [Memory.wfFrom, Bool.and_eq_true, decide_eq_true_eq] at h
    by_cases h1 : i < a
    · simp only [Memory.insert, if_pos h1, Memory.wfFrom, Bool.and_eq_true, decide_eq_true_eq]
      exact ⟨⟨⟨hl, hi⟩, hv⟩, ⟨⟨by omega, h.1.1.2⟩, h.1.2⟩, h.2⟩
    · by_cases h2 : a = i
      · subst h2
        simp only [Memory.insert, if_neg h1, if_true, Memory.wfFrom, Bool.and_eq_true, decide_eq_true_eq]
        exact ⟨⟨⟨hl, hi⟩, hv⟩, h.2⟩
      · simp only [Memory.insert, if_neg h1, if_neg h2, Memory.wfFrom, Bool.and_eq_true, decide_eq_true_eq]
        exact ⟨h.1, Memory.wfFrom_insert hv hi (by omega) h.2⟩

/-- Every write to a cell of the space keeps the canonical form. -/
theorem Memory.wf_write {m : Memory} {i : Nat} {v : Sample} (hi : i < 16) (h : Memory.wf m = true) :
    Memory.wf (Memory.write m i v) = true := by
  unfold Memory.write
  split
  · exact Memory.wfFrom_drop h
  · rename_i hv
    exact Memory.wfFrom_insert hv hi (Nat.zero_le _) h

theorem Memory.total_write_above {m : Memory} {i : Nat} {v : Sample} :
    ∀ {n : Nat}, n ≤ i → Memory.total (Memory.write m i v) n = Memory.total m n
  | 0, _ => rfl
  | n + 1, h => by
    simp only [Memory.total, Memory.total_write_above (show n ≤ i by omega),
      Memory.read_write_other (show n ≠ i by omega)]

/-- A write replaces one term of the sum of the cells (R134). -/
theorem Memory.total_write {m : Memory} {i : Nat} {v : Sample} (hm : Memory.wf m = true) :
    ∀ {n : Nat}, i < n → Memory.total (Memory.write m i v) n + (Memory.read m i).toNat = Memory.total m n + v.toNat
  | 0, h => absurd h (Nat.not_lt_zero _)
  | n + 1, h => by
    by_cases hn : i = n
    · subst hn
      simp only [Memory.total, Memory.total_write_above (Nat.le_refl _), Memory.read_write_same hm]
      omega
    · have ih := Memory.total_write (v := v) hm (show i < n by omega)
      simp only [Memory.total, Memory.read_write_other (show n ≠ i by omega)]
      omega

/-- One slot is one term of the sum, so taking it out never goes below 0 (R134). -/
theorem Memory.read_le_total {m : Memory} {i : Nat} : ∀ {n : Nat}, i < n → (Memory.read m i).toNat ≤ Memory.total m n
  | 0, h => absurd h (Nat.not_lt_zero _)
  | n + 1, h => by
    by_cases hn : i = n
    · subst hn; simp only [Memory.total]; omega
    · have ih := Memory.read_le_total (m := m) (show i < n by omega)
      simp only [Memory.total]; omega

/-- Each slot is at most 255 (R27). -/
theorem Memory.total_le {m : Memory} : ∀ {n : Nat}, Memory.total m n ≤ 255 * n
  | 0 => Nat.le_refl _
  | n + 1 => by
    have ih := Memory.total_le (m := m) (n := n)
    have hv : (Memory.read m n).toNat < 256 := (Memory.read m n).isLt
    simp only [Memory.total]; omega

end Sys2Proof.Machine
end

