-- ==== Sys2Proof/Laws/PerInstr.lean ====
section
/-! SUPPORT. The per-instruction family `Encoding`: an operation's selector byte decodes to it, and an operation without a
selector has no byte; one lemma per constructor. -/

namespace Sys2Proof.Laws.Encoding

/-- Decoding the encoding of a well-formed operation gives it back, with the bytes after it; an operation that has no selector
encodes to no byte (R97, R99). -/
def Statement (i : Instr) : Prop :=
  i.wf = true → if i.selectable then ∀ rest : List ModeIndex, decode (encode i ++ rest) = .ok (i, rest) else encode i = []

/-- A selector of at least 14 goes to the default branch (R97). -/
theorem decodeMode_unmatched (m : ModeIndex) (h : 14 ≤ m.toNat) : decodeMode m = decodeUnmatched m := by
  exact if_neg (Nat.not_lt.mpr h)

/-- The row `0000111m` holds 14 and 15. -/
theorem row14_range : ∀ m : ModeIndex, matchesRow 0xFE 0x0E m = true → 14 ≤ m.toNat ∧ m.toNat < 16 := by decide
theorem row16_range : ∀ m : ModeIndex, matchesRow 0xF0 0x10 m = true → 16 ≤ m.toNat ∧ m.toNat < 32 := by decide
theorem row32_range : ∀ m : ModeIndex, matchesRow 0xE0 0x20 m = true → 32 ≤ m.toNat ∧ m.toNat < 64 := by decide
theorem row64_range : ∀ m : ModeIndex, matchesRow 0xC0 0x40 m = true → 64 ≤ m.toNat ∧ m.toNat < 128 := by decide
theorem row128_range : ∀ m : ModeIndex, matchesRow 0x80 0x80 m = true → 128 ≤ m.toNat := by decide

theorem off : Statement .off := fun _ _ => rfl
theorem vu : Statement .vu := fun _ _ => rfl
theorem knight : Statement .knight := fun _ _ => rfl
theorem inverse : Statement .inverse := fun _ _ => rfl
theorem center : Statement .center := fun _ _ => rfl
theorem pingpong : Statement .pingpong := fun _ _ => rfl
theorem raindrop : Statement .raindrop := fun _ _ => rfl
theorem spectrum : Statement .spectrum := fun _ _ => rfl
theorem waveform : Statement .waveform := fun _ _ => rfl
theorem heartbeat : Statement .heartbeat := fun _ _ => rfl
theorem fireworks : Statement .fireworks := fun _ _ => rfl
theorem strobe : Statement .strobe := fun _ _ => rfl
theorem sparkle : Statement .sparkle := fun _ _ => rfl
theorem flash : Statement .flash := fun _ _ => rfl

theorem default14 (m : ModeIndex) : Statement (.default14 m) := fun h rest => by
  have hr := row14_range m h
  simp [encode, decode, decodeMode_unmatched m hr.1, decodeUnmatched, hr.2]

theorem default16 (m : ModeIndex) : Statement (.default16 m) := fun h rest => by
  have hr := row16_range m h
  simp [encode, decode, decodeMode_unmatched m (by omega), decodeUnmatched, hr.2, Nat.not_lt.mpr hr.1]

theorem default32 (m : ModeIndex) : Statement (.default32 m) := fun h rest => by
  have hr := row32_range m h
  simp [encode, decode, decodeMode_unmatched m (by omega), decodeUnmatched, hr.2, Nat.not_lt.mpr hr.1,
    show ¬ m.toNat < 16 by omega]

theorem default64 (m : ModeIndex) : Statement (.default64 m) := fun h rest => by
  have hr := row64_range m h
  simp [encode, decode, decodeMode_unmatched m (by omega), decodeUnmatched, hr.2, Nat.not_lt.mpr hr.1,
    show ¬ m.toNat < 16 by omega, show ¬ m.toNat < 32 by omega]

theorem default128 (m : ModeIndex) : Statement (.default128 m) := fun h rest => by
  have hr := row128_range m h
  simp [encode, decode, decodeMode_unmatched m (by omega), decodeUnmatched, Nat.not_lt.mpr hr,
    show ¬ m.toNat < 16 by omega, show ¬ m.toNat < 32 by omega, show ¬ m.toNat < 64 by omega]

theorem render (p : Pattern) : Statement (.render p) := fun _ => rfl
theorem sample : Statement .sample := fun _ => rfl
theorem fupdate (v : Sample) : Statement (.fupdate v) := fun _ => rfl
theorem advance : Statement .advance := fun _ => rfl

end Sys2Proof.Laws.Encoding
end

