-- ==== Sys2Proof/Laws/Script.lean ====
section
/-! SUPPORT. Scripts: the events a step adds, and the steps at which a queue of draws has nothing to say (R100). -/

namespace Sys2Proof.Machine

@[simp] theorem drawsFit_noneAsked (ds : List Draw) : drawsFit ds [] = true := by cases ds <;> rfl

/-- The new events are those of the entries put on the log. -/
theorem newEvents_of_log {s t : State} {es : List Entry} (h : t.log = es ++ s.log) :
    newEvents s t = es.reverse.map Entry.ev := by
  simp [newEvents, State.trace, h]

/-- The entries a handler run puts on the log are its own: level reads and its delay (R214). -/
theorem handlerRun_log (s : State) : ∃ es, (handlerRun s).log = es ++ s.log ∧
    ∀ e ∈ es, e.flow = .handler ∧ ((∃ b, e.ev = .btn b) ∨ ∃ ms, e.ev = .delay ms) := by
  unfold handlerRun
  split
  · split <;> exact ⟨[⟨.handler, .btn s.takeLevel.nextLevel⟩, ⟨.handler, .delay params.debounceMs⟩, ⟨.handler, .btn s.nextLevel⟩],
      by simp [sampleLevel, confirmEdge, State.handlerEvent]; rfl, by simp⟩
  · exact ⟨[⟨.handler, .btn s.nextLevel⟩], by simp [sampleLevel, State.handlerEvent], by simp⟩

/-- Level reads and delays ask for no draw. -/
theorem drawsAsked_handler {es : List Entry} (h : ∀ e ∈ es, (∃ b, e.ev = .btn b) ∨ ∃ ms, e.ev = .delay ms) :
    drawsAsked (es.map Entry.ev) = [] := by
  simp only [drawsAsked, List.filterMap_eq_nil_iff, List.mem_map]
  rintro _ ⟨e, he, rfl⟩
  obtain ⟨b, hb⟩ | ⟨ms, hms⟩ := h e he
  · rw [hb]
  · rw [hms]

/-- A step that asks for no draw is the same in a script. -/
theorem scriptStep_noDraw {s t : State} (h : step s = .next t) (hd : drawsAsked (newEvents s t) = []) :
    scriptStep s = .next t := by
  simp [scriptStep, h, hd]

/-- A script whose step asked for a draw of another range than the queued one stops there. -/
theorem scriptStep_illFormed {s t : State} (h : step s = .next t)
    (hd : drawsFit s.env.rnd (drawsAsked (newEvents s t)) = false) : scriptStep s = .refused .illFormedScript := by
  simp [scriptStep, h, hd]

/-- `ITER 1` is `ITER`. -/
theorem performLine_iterTimes_one (s : State) : performLine (.iterTimes 1) s = performLine .iter s := by
  simp only [performLine, scriptSteps]
  cases scriptStep s <;> rfl

end Sys2Proof.Machine
end

