-- ==== Sys2Proof/Laws/Trials.lean ====
section
/-! SUPPORT. The random draws and SPARKLE's trials: what a draw, one trial and a run of trials make of a state (R45, R200, R201). -/

namespace Sys2Proof.Machine

/-! ## Draws -/

/-- `RandDraw(2)`: the coin to its local, one event, the source's queue or counter moved on. -/
theorem drawCoin_eq (s : State) :
    drawCoin s = { s with loc := { s.loc with c := s.nextCoin }, seq := s.seq.advance, env := s.takeCoin.env,
                          log := ⟨.main, .rnd 2 s.nextCoin.toNat⟩ :: s.log } := by
  simp only [drawCoin, State.mainEvent, State.nextCoin, State.takeCoin]
  split <;> rfl

/-- `RandDraw(8)`: the index to its local, one event, the source's queue or counter moved on. -/
theorem drawIndex_eq (s : State) :
    drawIndex s = { s with loc := { s.loc with r := s.nextIndex }, seq := s.seq.advance, env := s.takeIndex.env,
                           log := ⟨.main, .rnd 8 s.nextIndex.toNat⟩ :: s.log } := by
  simp only [drawIndex, State.mainEvent, State.nextIndex, State.takeIndex]
  split <;> rfl

/-- Of the environment, a coin moves on the random source only. -/
theorem takeCoin_env (s : State) :
    s.takeCoin.env = { s.env with rnd := s.takeCoin.env.rnd, rndCount := s.takeCoin.env.rndCount } := by
  simp only [State.takeCoin]
  split <;> rfl

/-- Of the environment, an index draw moves on the random source only. -/
theorem takeIndex_env (s : State) :
    s.takeIndex.env = { s.env with rnd := s.takeIndex.env.rnd, rndCount := s.takeIndex.env.rndCount } := by
  simp only [State.takeIndex]
  split <;> rfl

/-- RAINDROP's draw, at rest: one event, and the drawn index in the local `r` (R200). -/
theorem atRest_drawIndex (s : State) :
    atRest (doMoves [.drawIndex] s) =
      afterEvents [.rnd 8 s.nextIndex.toNat] { atRest s with env := s.takeIndex.env } := by
  rw [doMoves_cons, doMoves_nil, doMove, drawIndex_eq]
  rfl

/-! ## Lists of trials -/

theorem trialPattern_append (a b : List (Option BitIndex)) : trialPattern (a ++ b) = trialPattern a ||| trialPattern b := by
  induction a with
  | nil => simp [trialPattern]
  | cons t ts ih => cases t <;> simp [trialPattern, ih, BitVec.or_assoc]

theorem trialEvents_append (a b : List (Option BitIndex)) : trialEvents (a ++ b) = trialEvents a ++ trialEvents b := by
  induction a with
  | nil => simp [trialEvents]
  | cons t ts ih => cases t <;> simp [trialEvents, ih]

theorem trialDraws_append (a b : List (Option BitIndex)) : trialDraws (a ++ b) = trialDraws a ++ trialDraws b := by
  induction a with
  | nil => simp [trialDraws]
  | cons t ts ih => cases t <;> simp [trialDraws, ih]

/-! ## One trial -/

/-- The moves of one trial (R201). -/
def trialMoves : List Move := [.drawCoin, .sparkleIndex]

/-- SPARKLE_PATTERN is eight trials from the empty pattern (R201). -/
theorem doMoves_sparkleMoves (s : State) :
    doMoves sparkleMoves s = doMoves (List.replicate 8 trialMoves).flatten { s with loc := { s.loc with p := 0 } } := by
  rw [sparkleMoves, doMoves_cons]; rfl

/-- A trial with coin 0: the coin's event and nothing in the pattern. -/
theorem trial_tails (s : State) (h : s.nextCoin ≠ 1) :
    atRest (doMoves trialMoves s) =
      afterEvents (trialEvents [none]) { atRest s with env := s.takeCoin.env } ∧
    (doMoves trialMoves s).loc.p = s.loc.p ||| trialPattern [none] := by
  have h0 : s.nextCoin = 0 := by
    generalize s.nextCoin = c at h
    revert c; decide
  have e : doMoves trialMoves s = drawCoin s := by
    have hc : (drawCoin s).loc.c ≠ 1 := by rw [drawCoin_eq]; exact h
    exact if_neg hc
  rw [e, drawCoin_eq, h0]
  exact ⟨rfl, by simp [trialPattern]⟩

/-- A trial with coin 1: the coin's event, the index's event right after it, and that bit in the pattern. -/
theorem trial_heads (s : State) (h : s.nextCoin = 1) :
    atRest (doMoves trialMoves s) =
      afterEvents (trialEvents [some s.takeCoin.nextIndex]) { atRest s with env := s.takeCoin.takeIndex.env } ∧
    (doMoves trialMoves s).loc.p = s.loc.p ||| trialPattern [some s.takeCoin.nextIndex] := by
  have e : doMoves trialMoves s = orDrawnBit (drawIndex (drawCoin s)) := by
    have hc : (drawCoin s).loc.c = 1 := by rw [drawCoin_eq]; exact h
    exact if_pos hc
  have hn : (drawCoin s).nextIndex = s.takeCoin.nextIndex := by rw [drawCoin_eq]; rfl
  have ht : (drawCoin s).takeIndex.env = s.takeCoin.takeIndex.env := by
    rw [drawCoin_eq]
    simp only [State.takeIndex]
    split <;> rfl
  rw [e, drawIndex_eq, hn, ht, drawCoin_eq, h]
  exact ⟨rfl, by simp [orDrawnBit, trialPattern, oneHot, trunc]⟩

end Sys2Proof.Machine
end

