-- ==== Sys2Proof/Tests/Slice0.lean ====
section
/-! SUPPORT. Tests: ill-formed terms the check refuses, selector words written out from the table of R97, one step per operation
on the vectors of spec/95_test_vectors.md, and for every obligation with hypotheses a witness that meets them. -/

namespace Sys2Proof.Tests

open Sys2Proof Sys2Proof.Machine

/-! ## Well-formedness: one ill-formed term per check (R97) -/

theorem test_default14_refuses_other_rows : (Instr.default14 0x0D).wf = false ∧ (Instr.default14 0x10).wf = false := by decide
theorem test_default16_refuses_other_rows : (Instr.default16 0x0F).wf = false ∧ (Instr.default16 0x20).wf = false := by decide
theorem test_default32_refuses_other_rows : (Instr.default32 0x1F).wf = false ∧ (Instr.default32 0x40).wf = false := by decide
theorem test_default64_refuses_other_rows : (Instr.default64 0x3F).wf = false ∧ (Instr.default64 0x80).wf = false := by decide
theorem test_default128_refuses_other_rows : (Instr.default128 0x7F).wf = false ∧ (Instr.default128 0x00).wf = false := by decide

/-! ## Decoding: the bits of the encoding column of the opcode table (R97) -/

theorem test_decode_fixed_rows :
    decodeTableWord 8 0b00000000 = some .off ∧ decodeTableWord 8 0b00000001 = some .vu ∧
    decodeTableWord 8 0b00000010 = some .knight ∧ decodeTableWord 8 0b00000011 = some .inverse ∧
    decodeTableWord 8 0b00000100 = some .center ∧ decodeTableWord 8 0b00000101 = some .pingpong ∧
    decodeTableWord 8 0b00000110 = some .raindrop ∧ decodeTableWord 8 0b00000111 = some .spectrum ∧
    decodeTableWord 8 0b00001000 = some .waveform ∧ decodeTableWord 8 0b00001001 = some .heartbeat ∧
    decodeTableWord 8 0b00001010 = some .fireworks ∧ decodeTableWord 8 0b00001011 = some .strobe ∧
    decodeTableWord 8 0b00001100 = some .sparkle ∧ decodeTableWord 8 0b00001101 = some .flash := by decide

/-- The ends of the five DEFAULT rows (DS6). -/
theorem test_decode_default_rows :
    decodeTableWord 8 0b00001110 = some (.default14 0x0E) ∧ decodeTableWord 8 0b00001111 = some (.default14 0x0F) ∧
    decodeTableWord 8 0b00010000 = some (.default16 0x10) ∧ decodeTableWord 8 0b00011111 = some (.default16 0x1F) ∧
    decodeTableWord 8 0b00100000 = some (.default32 0x20) ∧ decodeTableWord 8 0b00111111 = some (.default32 0x3F) ∧
    decodeTableWord 8 0b01000000 = some (.default64 0x40) ∧ decodeTableWord 8 0b01111111 = some (.default64 0x7F) ∧
    decodeTableWord 8 0b10000000 = some (.default128 0x80) ∧ decodeTableWord 8 0b11111111 = some (.default128 0xFF) := by decide

/-- No byte is read as an internal or asynchronous operation, no width but 8 is a selector, and no byte gives no instruction
(R90, R99). -/
theorem test_decode_rejects_by_name :
    decodeTableWord 2 0 = none ∧ decodeTableWord 16 0 = none ∧
    (match decode [] with | .error e => decide (e = .noSelector) | .ok _ => false) = true := by decide

/-! ## One step on a small state -/

/-- The state after, where there is one. -/
def nextOf (o : Host.Outcome State Fault Refusal) : Option State :=
  match o with
  | .next t => some t
  | .fault _ => none
  | .refused _ => none

/-- What a step leaves, seen through `f`. -/
def seen {α : Type} (f : State → α) (i : Instr) (s : State) : Option α := (nextOf (exec i s)).map f

/-- The LED view of the whole trace. -/
def leds (s : State) : List LedItem := ledView s.trace

/-- Reset with raw readings in store. -/
def withAdc (raws : List Raw) : State := { State.reset with env := { Env.empty with adc := raws } }

/-- Reset with random draws in store. -/
def withRnd (draws : List Draw) : State := { State.reset with env := { Env.empty with rnd := draws } }

/-- Reset with button levels and EDGE arrivals in store. -/
def withButton (levels : List Bit) (edges : List Nat) (mode : ModeIndex) : State :=
  { State.reset with mode := mode, env := { Env.empty with btn := levels, edges := edges } }

/-- A filter whose next average is `avg` after a sample 0 (the cells at reset). -/
def withAverage (avg : Nat) : State := { withAdc [0] with sum := BitVec.ofNat 16 (16 * avg) }

/-- VG1. -/
theorem test_off : seen leds .off State.reset = some [.render 0x00] := by decide +kernel

/-- VG35. -/
theorem test_vu_whole : seen (fun t => (leds t, Memory.read t.buf 0, t.sum, t.cur)) .vu (withAdc [800]) =
    some ([.render 0xFE], 200, 200, 1) := by decide +kernel

/-- VG7: a shift count of 8. -/
theorem test_vu_shifts_everything_out : seen leds .vu (withAverage 64) = some [.render 0x00] := by decide +kernel

/-- VG10. -/
theorem test_inverse : seen leds .inverse (withAverage 20) = some [.render 0xC0] := by decide +kernel

/-- VG12. -/
theorem test_inverse_at_64 : seen leds .inverse (withAverage 64) = some [.render 0xFF] := by decide +kernel

/-- VG14. -/
theorem test_center_lowest : seen leds .center (withAverage 0) = some [.render 0x18] := by decide +kernel

/-- VG17. -/
theorem test_center_three_pairs : seen leds .center (withAverage 40) = some [.render 0x7E] := by decide +kernel

/-- VG20, the five DEFAULT rows. -/
theorem test_default14 : seen leds (.default14 0x0F) (withAverage 20) = some [.render 0x3F] := by decide +kernel
theorem test_default16 : seen leds (.default16 0x10) (withAverage 20) = some [.render 0x3F] := by decide +kernel
theorem test_default32 : seen leds (.default32 0x3F) (withAverage 20) = some [.render 0x3F] := by decide +kernel
theorem test_default64 : seen leds (.default64 0x40) (withAverage 20) = some [.render 0x3F] := by decide +kernel
theorem test_default128 : seen leds (.default128 0xFF) (withAverage 20) = some [.render 0x3F] := by decide +kernel

/-- VG25; the filter is untouched. -/
theorem test_spectrum : seen (fun t => (leds t, t.sum, t.cur)) .spectrum (withAdc [256]) = some ([.render 0x07], 0, 0) := by
  decide +kernel

/-- VG26 and its neighbour: 223 is the last volume of level 7. -/
theorem test_spectrum_level_seven : seen leds .spectrum (withAdc [895]) = some [.render 0x7F] := by decide +kernel

/-- VG36. -/
theorem test_waveform_whole : seen (fun t => (leds t, t.wfLast, t.sum)) .waveform (withAdc [803]) =
    some ([.render 0x3F, .delay 50], 200, 0) := by decide +kernel

/-- VG33: a falling volume. -/
theorem test_waveform_falling : seen (fun t => (leds t, t.wfLast)) .waveform { withAdc [0] with wfLast := 255 } =
    some ([.render 0x7F, .delay 50], 0) := by decide +kernel

/-- KN2. -/
theorem test_knight_flips_at_zero : seen (fun t => (leds t, t.krPos, t.krDir)) .knight { State.reset with krDir := .down } =
    some ([.render 0x01, .delay 100], 1, .up) := by decide +kernel

/-- KN3. -/
theorem test_knight_flips_at_seven : seen (fun t => (leds t, t.krPos, t.krDir)) .knight { State.reset with krPos := 7 } =
    some ([.render 0x80, .delay 100], 6, .down) := by decide +kernel

/-- Q4. -/
theorem test_pingpong_shrinks : seen (fun t => (leds t, t.ppW, t.ppDir)) .pingpong
    { State.reset with ppW := 3, ppDir := .shrink } = some ([.render 0xE7, .delay 100], 2, .shrink) := by decide +kernel

/-- Q5. -/
theorem test_pingpong_flips_at_four : seen (fun t => (leds t, t.ppW, t.ppDir)) .pingpong { State.reset with ppW := 4 } =
    some ([.render 0xFF, .delay 100], 3, .shrink) := by decide +kernel

/-- T1. -/
theorem test_strobe : seen (fun t => (leds t, t.data, t.clk, t.latch)) .strobe State.reset =
    some ([.render 0xFF, .delay 50, .render 0x00, .delay 50], 0, 0, 1) := by decide +kernel

/-- HB1, without the table's values. -/
theorem test_heartbeat_delays : seen (fun t => (delaysIn t.trace, t.trace.length)) .heartbeat State.reset =
    some (List.replicate 24 75, 648) := by decide +kernel

/-- W1: the delays, in order. -/
theorem test_fireworks_delays : seen (fun t => delaysIn t.trace) .fireworks State.reset =
    some [150, 150, 150, 150, 300, 150, 150, 150, 150, 150, 150, 150, 150, 500] := by decide +kernel

/-- W1: the explosion, the fade and the blank pause, which stand after the four launch frames of 27 events each. -/
theorem test_fireworks_fade : seen (fun t => ledView (t.trace.drop 108)) .fireworks State.reset =
    some [.render 0xFF, .delay 300, .render 0xFF, .delay 150, .render 0x7F, .delay 150, .render 0x3F, .delay 150,
      .render 0x1F, .delay 150, .render 0x0F, .delay 150, .render 0x07, .delay 150, .render 0x03, .delay 150,
      .render 0x01, .delay 150, .render 0x00, .delay 500] := by decide +kernel

/-- X2. -/
theorem test_raindrop : seen leds .raindrop (withRnd [.index 5]) = some [.render 0x00, .delay 100, .render 0x20] := by
  decide +kernel

/-- The draws of X7. -/
def drawsX7 : List Draw :=
  [.coin 1, .index 3, .coin 0, .coin 1, .index 3, .coin 1, .index 6, .coin 0, .coin 0, .coin 0, .coin 1, .index 0]

/-- X7. -/
theorem test_sparkle : seen (fun t => (leds t, t.trace.take 3, t.env.rnd)) .sparkle (withRnd drawsX7) =
    some ([.render 0x49, .delay 100], [.rnd 2 1, .rnd 8 3, .rnd 2 0], []) := by decide +kernel

/-- X8. -/
theorem test_flash : seen leds .flash (withRnd drawsX7) = some [.render 0x49, .delay 5] := by decide +kernel

/-- V5: the whole event list. -/
theorem test_render_events : seen State.trace (.render 0xA5) State.reset = some
    ([.line .latch 0, .line .data 1, .line .clk 1, .line .clk 0, .line .data 0, .line .clk 1, .line .clk 0] ++
     [.line .data 1, .line .clk 1, .line .clk 0, .line .data 0, .line .clk 1, .line .clk 0] ++
     [.line .data 0, .line .clk 1, .line .clk 0, .line .data 1, .line .clk 1, .line .clk 0] ++
     [.line .data 0, .line .clk 1, .line .clk 0, .line .data 1, .line .clk 1, .line .clk 0, .line .latch 1]) := by
  decide +kernel

/-- V7: a handler in mid-frame, after event 9 (the pattern's own move comes first, so 11 moves are made before it). -/
theorem test_render_with_a_handler_in_it :
    seen (fun t => ((t.trace.drop 10).take 3, t.mode, (Device.after ⟨0, 0, 0, 0, 0⟩ t.trace).out)) (.render 0xA5)
      (withButton [0, 0] [11] 3) = some ([.btn 0, .delay 50, .btn 0], 4, 0xA5) := by decide +kernel

/-- M4. -/
theorem test_sample : seen (fun t => (t.loc.s, t.trace)) .sample (withAdc [679]) = some (169, [.adc 679]) := by decide +kernel

/-- M6. -/
theorem test_sample_drops_the_low_bits : seen (fun t => t.loc.s) .sample (withAdc [1023]) = some 255 := by decide +kernel

/-- FL1, first call. -/
theorem test_fupdate_first : seen (fun t => (t.loc.avg, t.sum, t.cur, Memory.read t.buf 0)) (.fupdate 200) State.reset =
    some (12, 200, 1, 200) := by decide +kernel

/-- FL3, call 17 by its rows: slot 0 holds 10, the sum is 1360, the sample is 170. -/
theorem test_fupdate_replaces : seen (fun t => (t.loc.avg, t.sum, Memory.read t.buf 0)) (.fupdate 170)
    { State.reset with buf := [(0, 10)], sum := 1360 } = some (95, 1520, 170) := by decide +kernel

/-- AD5: five more EDGEs during the 50 ms. -/
theorem test_advance_with_bounce : seen (fun t => (t.mode, t.trace, t.hact, t.env.edges)) .advance
    (withButton [0, 0] [2, 0, 0, 0, 0] 3) = some (4, [.btn 0, .delay 50, .btn 0], false, []) := by decide +kernel

/-- AD7. -/
theorem test_advance_from_255 : seen State.mode .advance (withButton [0, 0] [] 255) = some 9 := by decide +kernel

/-- R183 and U16: a width no rule gives a meaning to. -/
theorem test_pingpong_refuses_width_five :
    exec .pingpong { State.reset with ppW := 5 } = .refused .illegalBandWidth := by rfl

/-- R100: `RND 2 1` where RAINDROP asks for RandDraw(8) makes the script ill-formed. -/
theorem test_script_refuses_a_draw_of_another_range :
    performScript [.rnd (.coin 1), .iter] { State.reset with mode := 6 } = .refused .illFormedScript := by rfl

/-- R100: `ITER 2` takes two queued draws in order (X2 twice). -/
theorem test_script_iter_twice :
    ((nextOf (performScript [.rnd (.index 5), .rnd (.index 0), .iterTimes 2] { State.reset with mode := 6 })).map leds) =
      some [.render 0x00, .delay 100, .render 0x20, .render 0x00, .delay 100, .render 0x01] := by decide +kernel

/-! ## Witnesses: for each obligation with hypotheses, a state and operands that meet them, at the ends of each clause -/

theorem witness_DecodeOfEncodeIsTheOperation :
    ((Instr.default14 0x0E).wf = true ∧ (Instr.default14 0x0E).selectable = true) ∧
    ((Instr.default128 0xFF).wf = true ∧ (Instr.default128 0xFF).selectable = true) ∧
    (Instr.off.wf = true ∧ Instr.off.selectable = true) ∧
    ((Instr.render 0xA5).wf = true ∧ (Instr.render 0xA5).selectable = false) ∧
    (Instr.advance.wf = true ∧ Instr.advance.selectable = false) := by decide

theorem witness_OnlySerialFramesReadAsFrames : readFrame (serialFrame 0xA5 ++ [.delay 5]) = some (0xA5, [.delay 5]) := by
  decide

theorem witness_StepPerformsTheDispatchedOperation :
    State.reset.seq = .atDispatch ∧ State.reset.hseq = .idle ∧ State.reset.env.edges.head? ≠ some 0 ∧
    decodeMode State.reset.mode = .off ∧
    (withButton [] [1] 255).env.edges.head? ≠ some 0 ∧ decodeMode (withButton [] [1] 255).mode = .default128 255 := by decide

theorem witness_StepTakesADueEdgeFirst :
    (withButton [0, 0] [0, 7] 0).seq = .atDispatch ∧ (withButton [0, 0] [0, 7] 0).hseq = .idle ∧
    (withButton [0, 0] [0, 7] 0).env.edges = 0 :: [7] := by decide

theorem witness_OperationInFlightRunsToCompletion :
    ({ State.reset with seq := .running .knight 26, todo := [.delay 100, .krFlip, .krMove, .finish] } : State).seq =
      .running .knight 26 := rfl

theorem witness_PlacedSelectorIsPerformedNext :
    decodeTableWord 8 0 = some .off ∧ decodeTableWord 8 255 = some (.default128 255) := by decide

theorem witness_FupdateReplacesTheOldestSample :
    Memory.wf State.reset.buf = true ∧ Memory.wf [(0, 1), (15, 255)] = true ∧ (15 : Nat) ≠ State.reset.cur.toNat := by decide

/-- The largest sum, 4080, is met too. -/
theorem witness_FupdateKeepsTheSumInvariant :
    let full : Memory := (List.range 16).map fun a => (a, 255)
    let s : State := { State.reset with buf := full, sum := 4080, cur := 15 }
    Memory.wf s.buf = true ∧ s.sum.toNat = Memory.total s.buf 16 ∧ (nextOf (exec (.fupdate 255) s)).isSome = true := by
  decide +kernel

theorem witness_AverageIsOfTheLastSixteenSamples : State.reset.buf = [] ∧ State.reset.sum = 0 := by decide

theorem witness_RingBufferHoldsTheLastSixteenSamples : State.reset.buf = [] ∧ (0 : Nat) < 16 ∧ (15 : Nat) < 16 := by decide

theorem witness_StartUpAveragesArePulledTowardZero :
    ({ State.reset with cur := 15 } : State).buf = [] ∧ ({ State.reset with cur := 15 } : State).sum = 0 := by decide

theorem witness_DefaultRendersTheRightShiftedMask :
    ∃ i m, i = Instr.default14 m ∨ i = Instr.default16 m ∨ i = Instr.default32 m ∨ i = Instr.default64 m ∨
      i = Instr.default128 m := ⟨_, 0x0E, .inl rfl⟩

theorem witness_KnightSweepHasPeriodFourteen : ∃ t, exec .knight State.reset = .next t := ⟨_, rfl⟩

theorem witness_PingpongShowsTwoBandsThenStepsTheWidth :
    1 ≤ State.reset.ppW.toNat ∧ State.reset.ppW.toNat ≤ 4 ∧
    1 ≤ ({ State.reset with ppW := 4 } : State).ppW.toNat ∧ ({ State.reset with ppW := 4 } : State).ppW.toNat ≤ 4 := by decide

theorem witness_SparkleAndFlashOrEightTrials :
    ∃ i ms, (i = Instr.sparkle ∧ ms = 100) ∨ (i = .flash ∧ ms = 5) := ⟨.flash, 5, .inr ⟨rfl, rfl⟩⟩

/-- Eight trials that all draw and eight that draw no index. -/
theorem witness_SparkleAndFlashUseTheSuppliedDraws :
    (List.replicate 8 (some (7 : BitIndex))).length = 8 ∧
    (withRnd (trialDraws (List.replicate 8 (some 7)))).env.rnd = trialDraws (List.replicate 8 (some 7)) ++ [] ∧
    (withRnd (trialDraws (List.replicate 8 none) ++ [.index 2])).env.rnd = trialDraws (List.replicate 8 none) ++ [.index 2] := by
  decide

/-- Each of the three event sequences, at MODE 0, 12 and 255. -/
theorem witness_AdvanceDebouncesTheButton :
    ((withButton [1] [] 0).hseq = .idle ∧ (withButton [1] [] 0).nextLevel = 1) ∧
    ((withButton [0, 1] [] 255).hseq = .idle ∧ (withButton [0, 1] [] 255).nextLevel = 0 ∧
      (withButton [0, 1] [] 255).takeLevel.nextLevel = 1) ∧
    ((withButton [0, 0] [] 12).hseq = .idle ∧ (withButton [0, 0] [] 12).nextLevel = 0 ∧
      (withButton [0, 0] [] 12).takeLevel.nextLevel = 0) := by decide

/-- A state with the handler in its debounce wait. -/
def inDebounce : State := { withButton [0] [0] 3 with hseq := .debounce }

theorem witness_EdgeDuringTheHandlerIsDiscarded : inDebounce.hact = true := by decide

theorem witness_TransitionIsTotalAndLandsInTheCycle :
    (withButton [0, 0] [] 255).hseq = .idle ∧ (withButton [0, 0] [] 255).nextLevel = 0 ∧
    (withButton [0, 0] [] 255).takeLevel.nextLevel = 0 ∧
    (withButton [0, 0] [0] 12).mode.toNat < 13 ∧ (nextOf (step (withButton [0, 0] [0] 12))).isSome = true := by decide

/-- The invariant holds at reset with anything in store and any valid MODE. -/
theorem betweenOperations_withButton (levels : List Bit) (edges : List Nat) (mode : ModeIndex) (h : mode.toNat < 13) :
    BetweenOperations (withButton levels edges mode) :=
  { mode := h, buf := rfl, sum := rfl, band := rfl, clk := rfl, seq := rfl, hseq := rfl, todo := rfl, loc := rfl }

/-- A confirmed edge with the bounce of AD5, the last EDGE just before the second check; a glitch; a release with bounce. -/
theorem witness_ModeCountsConfirmedEdges :
    BetweenOperations (withButton [] [] 12) ∧ (withButton [] [] 12).env.edges = [] ∧
    ∀ n ∈ ([⟨0, 0, [1, 0, 0, 0, 1]⟩, ⟨0, 1, []⟩, ⟨1, 0, [0, 0]⟩] : List Notification), n.inWindow = true :=
  ⟨betweenOperations_withButton _ _ _ (by decide), rfl, by decide⟩

/-- Two states that agree in the handler's part and differ in registers and on the schedule; and an operation in which no EDGE
arrives. -/
theorem witness_HandlerTouchesOnlyMode :
    handlerView { withButton [0, 0] [3] 12 with krPos := 5, wfLast := 200, data := 1 } = handlerView (withButton [0, 0] [] 12) ∧
    Instr.knight ≠ .advance ∧ Undisturbed State.reset ∧ ∃ t, exec .knight State.reset = .next t :=
  ⟨rfl, by decide, ⟨rfl, rfl⟩, _, rfl⟩

theorem witness_MainFlowIsFrozenWhileTheHandlerRuns : inDebounce.hact = true := by decide

theorem witness_DueEdgePreemptsTheMainFlow :
    (withButton [0] [0, 0] 3).hseq = .idle ∧ (withButton [0] [0, 0] 3).env.edges = 0 :: [0] := by decide

/-- An event move and a silent one, with an EDGE on the schedule that is not due. -/
theorem witness_EachEventAdvancesTheSequencer :
    let s : State := { withButton [0] [1] 2 with seq := .running .knight 26, todo := [.delay 100, .krFlip] }
    let u : State := { withButton [0] [] 2 with seq := .running .knight 27, todo := [.finish] }
    (s.hseq = .idle ∧ s.env.edges.head? ≠ some 0 ∧ s.seq = .running .knight 26 ∧ s.todo = .delay 100 :: [.krFlip]) ∧
    (u.hseq = .idle ∧ u.env.edges.head? ≠ some 0 ∧ u.seq = .running .knight 27 ∧ u.todo = .finish :: []) := by decide

theorem witness_RegistersAreWrittenByTheirOwnersOnly :
    ∃ t, exec .strobe State.reset = .next t ∧ Instr.strobe ≠ .knight ∧ Instr.strobe ≠ .pingpong ∧ Instr.strobe ≠ .waveform ∧
      usesFilter .strobe = false := ⟨_, rfl, by decide⟩

theorem witness_OnlyTheSlotUnderTheCursorIsStored :
    (∃ t, exec .vu State.reset = .next t) ∧ (15 : Nat) ≠ State.reset.cur.toNat ∧ usesFilter .advance = false :=
  ⟨⟨_, rfl⟩, by decide⟩

theorem witness_UndisturbedOperationLeavesTheHandlersPart :
    Instr.sample ≠ .advance ∧ Undisturbed State.reset ∧ ∃ t, exec .sample State.reset = .next t :=
  ⟨by decide, ⟨rfl, rfl⟩, _, rfl⟩

/-- With the handler idle and two EDGEs on the schedule, and with a handler already running and none. -/
theorem witness_ModeMovesOnlyByTransitions :
    Instr.vu ≠ .advance ∧ (∃ t, exec .vu (withButton [0, 0] [3, 40] 12) = .next t) ∧
    ∃ t, exec .vu { withButton [0] [] 12 with hseq := .secondCheck } = .next t := ⟨by decide, ⟨_, rfl⟩, _, rfl⟩

theorem witness_FramesDelaysAndConversionsPerOperation :
    (∃ t, exec .vu State.reset = .next t) ∧ usesConverter .vu = true ∧ (∃ t, exec .off State.reset = .next t) ∧
      usesConverter .off = false := ⟨⟨_, rfl⟩, rfl, ⟨_, rfl⟩, rfl⟩

theorem witness_LedsChangeOnlyAtALatchRise :
    (Device.see ⟨0xA5, 0, 0, 0, 0⟩ (.line .latch 1)).out ≠ (Device.out ⟨0xA5, 0, 0, 0, 0⟩) := by decide

theorem witness_LedsShowTheRenderedPattern : (Device.clk ⟨0xFF, 0xFF, 1, 0, 1⟩) = 0 := rfl

theorem witness_EveryStepKeepsTheInvariant :
    BetweenOperations (withButton [0, 0] [0, 5] 12) ∧ ∃ t, step (withButton [0, 0] [0, 5] 12) = .next t :=
  ⟨betweenOperations_withButton _ _ _ (by decide), _, rfl⟩

theorem witness_TheCoreNeverStops : BetweenOperations (withButton [0, 0] [0, 5] 0) :=
  betweenOperations_withButton _ _ _ (by decide)

theorem witness_FlashAndDefaultAreNeverSelected : BetweenOperations (withButton [] [] 12) :=
  betweenOperations_withButton _ _ _ (by decide)

/-- Two states that differ in everything the handler owns. -/
theorem witness_MainFlowIsIndependentOfTheHandler :
    mainView State.reset = mainView (withButton [0, 0] [3] 12) ∧ ∃ t, exec .knight State.reset = .next t := ⟨rfl, _, rfl⟩

/-- Two states that differ in the main flow's registers. -/
theorem witness_HandlerIsIndependentOfTheMainFlow :
    let s := withButton [0, 0] [3] 12
    let s' : State := { withButton [0, 0] [3] 12 with krPos := 5, wfLast := 200, data := 1 }
    handlerView s = handlerView s' ∧ s.env.edges = s'.env.edges ∧ (∃ t, exec .knight s = .next t) ∧
      ∃ t', exec .knight s' = .next t' := ⟨rfl, rfl, ⟨_, rfl⟩, _, rfl⟩

end Sys2Proof.Tests
end

/-! # Running an operation: its moves, what its outcome is, and what it makes of the registers -/

namespace Sys2Proof.Machine

/-! ## The moves of every operation -/

/-- The main flow's moves of each operation; ADVANCE is the handler's and has none. -/
def movesOf : Instr → List Move
  | .off => offMoves
  | .vu => compositeMoves .vu
  | .knight => knightMoves
  | .inverse => compositeMoves .inverse
  | .center => compositeMoves .center
  | .pingpong => pingpongMoves
  | .raindrop => raindropMoves
  | .spectrum => spectrumMoves
  | .waveform => waveformMoves
  | .heartbeat => heartbeatMoves
  | .fireworks => fireworksMoves
  | .strobe => strobeMoves
  | .sparkle => sparkleOpMoves
  | .flash => flashMoves
  | .default14 _ | .default16 _ | .default32 _ | .default64 _ | .default128 _ => compositeMoves .deflt
  | .render p => showMoves (.const p)
  | .sample => sampleMoves
  | .fupdate _ => fupdateMoves
  | .advance => []

theorem exec_advance_eq {s t : State} (h : exec .advance s = .next t) :
    t = if s.hact then s else handlerToEnd (takeEdge s) := (Host.Outcome.next.inj h).symm

/-- What exec can answer: a mode operation is performed from DISPATCH on, an internal one in place on some local values, and
ADVANCE runs the handler to its end where it is not running already (R14, R140, R219). -/
theorem exec_cases {i : Instr} {s t : State} (h : exec i s = .next t) :
    (i.selectable = true ∧ ∃ op, t = perform op (movesOf i) s) ∨
    (i.selectable = false ∧ i ≠ .advance ∧ ∃ l, t = inPlace (movesOf i) { s with loc := l }) ∨
    (i = .advance ∧ t = if s.hact then s else handlerToEnd (takeEdge s)) := by
  cases i with
  | pingpong =>
    have hn : execPingpong s = .next t := h
    unfold execPingpong at hn
    split at hn
    · exact .inl ⟨rfl, .pingpong, (Host.Outcome.next.inj hn).symm⟩
    · cases hn
  | render p => exact .inr (.inl ⟨rfl, nofun, s.loc, (Host.Outcome.next.inj h).symm⟩)
  | sample => exact .inr (.inl ⟨rfl, nofun, s.loc, (Host.Outcome.next.inj h).symm⟩)
  | fupdate v => exact .inr (.inl ⟨rfl, nofun, { s.loc with s := v }, (Host.Outcome.next.inj h).symm⟩)
  | advance => exact .inr (.inr ⟨rfl, exec_advance_eq h⟩)
  | off => exact .inl ⟨rfl, .off, (Host.Outcome.next.inj h).symm⟩
  | vu => exact .inl ⟨rfl, .vu, (Host.Outcome.next.inj h).symm⟩
  | knight => exact .inl ⟨rfl, .knight, (Host.Outcome.next.inj h).symm⟩
  | inverse => exact .inl ⟨rfl, .inverse, (Host.Outcome.next.inj h).symm⟩
  | center => exact .inl ⟨rfl, .center, (Host.Outcome.next.inj h).symm⟩
  | raindrop => exact .inl ⟨rfl, .raindrop, (Host.Outcome.next.inj h).symm⟩
  | spectrum => exact .inl ⟨rfl, .spectrum, (Host.Outcome.next.inj h).symm⟩
  | waveform => exact .inl ⟨rfl, .waveform, (Host.Outcome.next.inj h).symm⟩
  | heartbeat => exact .inl ⟨rfl, .heartbeat, (Host.Outcome.next.inj h).symm⟩
  | fireworks => exact .inl ⟨rfl, .fireworks, (Host.Outcome.next.inj h).symm⟩
  | strobe => exact .inl ⟨rfl, .strobe, (Host.Outcome.next.inj h).symm⟩
  | sparkle => exact .inl ⟨rfl, .sparkle, (Host.Outcome.next.inj h).symm⟩
  | flash => exact .inl ⟨rfl, .flash, (Host.Outcome.next.inj h).symm⟩
  | default14 | default16 | default32 | default64 | default128 =>
    exact .inl ⟨rfl, .deflt, (Host.Outcome.next.inj h).symm⟩

/-- Only an illegal band width stops an operation (U16; log 13). -/
theorem exec_next_of_legalBand (i : Instr) {s : State} (h : legalBand s.ppW = true) : ∃ t, exec i s = .next t := by
  cases i with
  | pingpong => exact ⟨_, if_pos h⟩
  | _ => exact ⟨_, rfl⟩

/-! ## The handler's ticks and runs -/

theorem hact_eq_false_iff {s : State} : s.hact = false ↔ s.hseq = .idle := by
  cases hs : s.hseq <;> simp [State.hact, HandlerPlace.active, hs]

/-- A tick while HACT = 1 touches nothing of the main flow's (R220). -/
theorem tick_active_mainView {s : State} (h : s.hact = true) : mainView (tick s) = mainView s := by
  obtain ⟨es, -, he⟩ := tick_active s h
  rw [he, mainView_withEdges, mainView_handlerMove]

/-- A tick while HACT = 1 brings the handler nearer to its return (R32). -/
theorem tick_active_left {s : State} (h : s.hact = true) : (tick s).hseq.left < s.hseq.left := by
  obtain ⟨es, -, he⟩ := tick_active s h
  rw [he, withEdges_hseq]
  exact handlerMove_left s h

theorem runHandler_mainView : ∀ (n : Nat) (s : State), mainView (runHandler n s) = mainView s
  | 0, _ => rfl
  | n + 1, s => by
    by_cases h : s.hact = true
    · rw [runHandler_active n s h, runHandler_mainView n, tick_active_mainView h]
    · rw [runHandler_idle _ s (by simpa using h)]

/-- With enough ticks the handler has returned (R219). -/
theorem runHandler_hseq : ∀ (n : Nat) (s : State), s.hseq.left ≤ n → (runHandler n s).hseq = .idle
  | 0, s, hn => by
    show s.hseq = .idle
    cases hs : s.hseq <;> simp [HandlerPlace.left, hs] at hn ⊢
  | n + 1, s, hn => by
    by_cases h : s.hact = true
    · rw [runHandler_active n s h]
      exact runHandler_hseq n (tick s) (by have := tick_active_left h; omega)
    · have hf : s.hact = false := by simpa using h
      rw [runHandler_idle _ s hf]
      exact hact_eq_false_iff.1 hf

theorem handlerToEnd_mainView (s : State) : mainView (handlerToEnd s) = mainView s := runHandler_mainView _ s

theorem handlerToEnd_hseq (s : State) : (handlerToEnd s).hseq = .idle := runHandler_hseq _ s (Nat.le_refl _)

/-! ## A run of the main flow ends with HACT = 0 -/

theorem mainMove_hseq (s : State) : (mainMove s).hseq = s.hseq := by
  unfold mainMove
  split
  · rfl
  · rw [doMove_hseq]

/-- The tick that makes the last move of an operation is the main flow's, so the handler is idle after it (R74). -/
theorem tick_last_hseq {s : State} (h : s.todo ≠ []) (ht : (tick s).todo = []) : (tick s).hseq = .idle := by
  by_cases ha : (deliver s).hact = true
  · have hk : (tick s).todo = s.todo := by simp [tick, ha]
    exact absurd (hk ▸ ht) h
  · have hf : (deliver s).hact = false := by simpa using ha
    simp [tick, hf, mainMove_hseq, hact_eq_false_iff.1 hf]

theorem run_done (n : Nat) {s : State} (h : s.todo = []) : run n s = s := by
  cases n <;> simp [run, h]

theorem run_hseq : ∀ (n : Nat) (s : State), budget s ≤ n → s.todo ≠ [] → (run n s).hseq = .idle
  | 0, s, hb, h => by
    have hl : s.todo.length = 0 := by simp only [budget] at hb; omega
    exact absurd (List.eq_nil_of_length_eq_zero hl) h
  | n + 1, s, hb, h => by
    have hr : run (n + 1) s = run n (tick s) := by simp [run, h]
    rw [hr]
    by_cases ht : (tick s).todo = []
    · rw [run_done n ht]
      exact tick_last_hseq h ht
    · exact run_hseq n (tick s) (by have := tick_budget s h; omega) ht

/-- A mode operation ends with the handler idle. -/
theorem perform_hseq (op : ModeOp) {ms : List Move} (s : State) (h : ms ≠ []) : (perform op ms s).hseq = .idle :=
  run_hseq _ (enter op ms s) (Nat.le_refl _) h

/-! ## What an operation makes of the main flow's registers -/

/-- Whatever the operation, the main flow's part after it is, at rest, what the operation's moves make of the part before,
with SEQ, the local values and the moves in flight put aside (R125, R148). -/
theorem exec_atRest {i : Instr} {s t : State} (h : exec i s = .next t) :
    ∃ u, atRest u = atRest (mainView s) ∧ atRest (mainView t) = atRest (doMoves (movesOf i) u) := by
  rcases exec_cases h with ⟨-, op, rfl⟩ | ⟨-, -, l, rfl⟩ | ⟨rfl, rfl⟩
  · exact ⟨mainView (enter op (movesOf i) s), rfl, by rw [perform_mainView, atRest_withTodo]⟩
  · exact ⟨mainView { s with loc := l }, rfl, by rw [inPlace_mainView]⟩
  · refine ⟨mainView s, rfl, ?_⟩
    split
    · rfl
    · rw [handlerToEnd_mainView, mainView_takeEdge]; rfl

/-! ## Which registers a move, and an operation, may write -/

/-- The main flow's registers, by owner (R22): KNIGHT's, PINGPONG's and WAVEFORM's phase registers, the filter, the lines. -/
inductive RegGroup where
  | knight
  | pingpong
  | waveform
  | filter
  | lines

/-- The registers of a group hold in `t` what they hold in `s`. -/
def RegGroup.Unchanged (g : RegGroup) (s t : State) : Prop :=
  match g with
  | .knight => t.krPos = s.krPos ∧ t.krDir = s.krDir
  | .pingpong => t.ppW = s.ppW ∧ t.ppDir = s.ppDir
  | .waveform => t.wfLast = s.wfLast
  | .filter => t.buf = s.buf ∧ t.cur = s.cur ∧ t.sum = s.sum
  | .lines => t.data = s.data ∧ t.clk = s.clk ∧ t.latch = s.latch

/-- Whether a move writes a register of a group. -/
def Move.writes : Move → RegGroup → Bool
  | .krFlip, .knight | .krMove, .knight => true
  | .ppFlip, .pingpong | .ppMove, .pingpong => true
  | .wfStore, .waveform => true
  | .fuSub, .filter | .fuStore, .filter | .fuAdd, .filter | .fuAdvance, .filter => true
  | .line _ _, .lines | .dataBit _, .lines => true
  | _, _ => false

/-- The owners of a group: the operations that may write it (R22, R138). -/
def RegGroup.ownedBy : RegGroup → Instr → Bool
  | .knight, i => i == .knight
  | .pingpong, i => i == .pingpong
  | .waveform, i => i == .waveform
  | .filter, i => usesFilter i
  | .lines, i => renderCalls i != 0

theorem RegGroup.unchanged_refl (g : RegGroup) (s : State) : g.Unchanged s s := by
  cases g <;> simp [RegGroup.Unchanged]

theorem RegGroup.unchanged_trans {g : RegGroup} {s t u : State} (h : g.Unchanged s t) (h' : g.Unchanged t u) :
    g.Unchanged s u := by
  cases g <;> simp_all [RegGroup.Unchanged]

/-- No group holds SEQ, a local value or anything of the handler's. -/
theorem RegGroup.unchanged_atRest_mainView {g : RegGroup} {s t : State} :
    g.Unchanged (atRest (mainView s)) (atRest (mainView t)) ↔ g.Unchanged s t := by
  cases g <;> rfl

theorem RegGroup.unchanged_atRest {g : RegGroup} {s t : State} :
    g.Unchanged (atRest s) (atRest t) ↔ g.Unchanged s t := by
  cases g <;> rfl

/-- A move that does not write a group leaves it unchanged. -/
theorem doMove_unchanged {g : RegGroup} {m : Move} (s : State) (h : m.writes g = false) : g.Unchanged s (doMove m s) := by
  cases m with
  | sparkleIndex =>
    simp only [doMove]
    split
    · cases g <;> simp [RegGroup.Unchanged, drawIndex]
    · exact g.unchanged_refl s
  | _ => cases g <;> simp_all [RegGroup.Unchanged, Move.writes, doMove, driveLine, convert, drawCoin, drawIndex]

theorem doMoves_unchanged {g : RegGroup} : ∀ {ms : List Move} (s : State), ms.any (·.writes g) = false →
    g.Unchanged s (doMoves ms s)
  | [], s, _ => g.unchanged_refl s
  | m :: ms, s, h => by
    obtain ⟨hm, hms⟩ : m.writes g = false ∧ ms.any (·.writes g) = false := by simpa using h
    rw [doMoves_cons]
    exact RegGroup.unchanged_trans (doMove_unchanged s hm) (doMoves_unchanged _ hms)

/-- A frame writes the lines, as each of its data bits does, and nothing else. -/
theorem frameMoves_writes (k : PatternRule) (ms : Nat) (g : RegGroup) :
    (frameMoves k ms).any (·.writes g) = (Move.dataBit 0).writes g := by
  cases g <;> rfl

/-- The moves of an operation write a group exactly if the operation owns it. -/
theorem movesOf_writes (i : Instr) (g : RegGroup) : (movesOf i).any (·.writes g) = g.ownedBy i := by
  cases i with
  | heartbeat =>
    simp only [movesOf, heartbeatMoves, List.any_append, List.any_flatMap, frameMoves_writes]
    cases g <;> rfl
  | fireworks =>
    simp only [movesOf, fireworksMoves, launchMoves, fadeMoves, List.any_append, List.any_flatMap, frameMoves_writes]
    cases g <;> rfl
  | _ => cases g <;> rfl

/-- OWNERSHIP: an operation leaves every group it does not own unchanged (R29). -/
theorem exec_unchanged {i : Instr} {s t : State} (g : RegGroup) (h : exec i s = .next t) (hg : g.ownedBy i = false) :
    g.Unchanged s t := by
  obtain ⟨u, hu, ht⟩ := exec_atRest h
  have hms := doMoves_unchanged u ((movesOf_writes i g).trans hg)
  rw [← RegGroup.unchanged_atRest, hu, ← ht] at hms
  exact RegGroup.unchanged_atRest_mainView.1 hms

/-! ## MODE moves by whole transitions -/

/-- How many handler runs can still confirm an edge: one per EDGE on the schedule, and the one that is running. -/
def pendingRuns (s : State) : Nat := s.env.edges.length + s.hact.toNat

/-- MODE has moved from `s` to `t` by whole transitions, each one paid for by a handler run that was pending (R143). -/
def ModeAdvanced (s t : State) : Prop := ∃ k, k + pendingRuns t ≤ pendingRuns s ∧ t.mode = nextMode^[k] s.mode

/-- No transition. -/
theorem ModeAdvanced.of_mode_eq {s t : State} (hm : t.mode = s.mode) (hp : pendingRuns t ≤ pendingRuns s) :
    ModeAdvanced s t := ⟨0, by omega, hm⟩

theorem ModeAdvanced.refl (s : State) : ModeAdvanced s s := .of_mode_eq rfl (Nat.le_refl _)

theorem ModeAdvanced.trans {s t u : State} (h : ModeAdvanced s t) (h' : ModeAdvanced t u) : ModeAdvanced s u := by
  obtain ⟨k, hk, hm⟩ := h
  obtain ⟨k', hk', hm'⟩ := h'
  exact ⟨k' + k, by omega, by rw [hm', hm, Function.iterate_add_apply]⟩

/-- The arrival of EDGEs takes each off the schedule and starts one handler run at most (R44). -/
theorem deliverFrom_modeAdvanced : ∀ (es : List Nat) (s : State),
    (deliverFrom es s).mode = s.mode ∧ pendingRuns (deliverFrom es s) ≤ es.length + s.hact.toNat
  | [], s => by rw [deliverFrom] <;> simp [pendingRuns, State.hact]
  | 0 :: es, s => by
    obtain ⟨hm, hp⟩ := deliverFrom_modeAdvanced es (takeEdge s)
    rw [deliverFrom]
    refine ⟨hm.trans (takeEdge_mode s), hp.trans ?_⟩
    by_cases h : s.hact = true
    · simp [takeEdge_active s h, h]
    · have hb := Bool.toNat_le (takeEdge s).hact
      simp only [List.length_cons]
      omega
  | (n + 1) :: es, s => by rw [deliverFrom] <;> simp [pendingRuns, State.hact]

theorem sampleLevel_mode (s : State) : (sampleLevel s).mode = s.mode := by simp [sampleLevel]

/-- Before its second check the handler leaves MODE alone (R214). -/
theorem handlerMove_mode {s : State} (h : s.hseq ≠ .secondCheck) : (handlerMove s).mode = s.mode := by
  unfold handlerMove
  split
  · rfl
  · split <;> simp [sampleLevel_mode]
  · rfl
  · contradiction

/-- The second check ends the run, with the transition or without it (R214, R216). -/
theorem handlerMove_secondCheck {s : State} (h : s.hseq = .secondCheck) :
    (handlerMove s).hseq = .idle ∧ ((handlerMove s).mode = s.mode ∨ (handlerMove s).mode = nextMode s.mode) := by
  simp only [handlerMove, h]
  split <;> simp [sampleLevel_mode]

/-- The handler's move: one transition at most, in the move that ends its run. -/
theorem handlerMove_modeAdvanced {s : State} (h : s.hact = true) : ModeAdvanced s (handlerMove s) := by
  have hp : pendingRuns s = s.env.edges.length + 1 := by simp [pendingRuns, h]
  by_cases hq : s.hseq = .secondCheck
  · obtain ⟨hi, hm⟩ := handlerMove_secondCheck hq
    have hp' : pendingRuns (handlerMove s) = s.env.edges.length := by simp [pendingRuns, hact_eq_false_iff.2 hi]
    rcases hm with hm | hm
    · exact .of_mode_eq hm (by omega)
    · exact ⟨1, by omega, hm⟩
  · refine .of_mode_eq (handlerMove_mode hq) ?_
    have hb := Bool.toNat_le (handlerMove s).hact
    rw [hp, pendingRuns, handlerMove_edges]
    omega

/-- A move of the main flow leaves MODE, the schedule and the handler alone (R217). -/
theorem mainMove_modeAdvanced (s : State) : ModeAdvanced s (mainMove s) := by
  have he : (mainMove s).env.edges = s.env.edges := by unfold mainMove; split <;> simp
  refine .of_mode_eq ?_ ?_
  · unfold mainMove; split <;> simp
  · simp [pendingRuns, State.hact, mainMove_hseq, he]

theorem tick_modeAdvanced (s : State) : ModeAdvanced s (tick s) := by
  obtain ⟨hm, hp⟩ := deliverFrom_modeAdvanced s.env.edges s
  have hd : ModeAdvanced s (deliver s) := .of_mode_eq hm hp
  have hpass : ∀ u : State, ModeAdvanced u u.movePassed := fun u =>
    .of_mode_eq rfl (by simp [pendingRuns, State.hact, countDown_length])
  simp only [tick]
  split
  next ha => exact (hd.trans (handlerMove_modeAdvanced ha)).trans (hpass _)
  next => exact (hd.trans (mainMove_modeAdvanced _)).trans (hpass _)

theorem run_modeAdvanced : ∀ (n : Nat) (s : State), ModeAdvanced s (run n s)
  | 0, s => .refl s
  | n + 1, s => by
    rw [run]
    split
    · exact .refl s
    · exact (tick_modeAdvanced s).trans (run_modeAdvanced n _)

theorem runHandler_modeAdvanced : ∀ (n : Nat) (s : State), ModeAdvanced s (runHandler n s)
  | 0, s => .refl s
  | n + 1, s => by
    rw [runHandler]
    split
    · exact (tick_modeAdvanced s).trans (runHandler_modeAdvanced n _)
    · exact .refl s

/-- Every operation but ADVANCE is a run, from its entry or in place. -/
theorem exec_modeAdvanced {i : Instr} {s t : State} (hi : i ≠ .advance) (h : exec i s = .next t) : ModeAdvanced s t := by
  rcases exec_cases h with ⟨-, op, rfl⟩ | ⟨-, -, l, rfl⟩ | ⟨hadv, -⟩
  · exact run_modeAdvanced _ (enter op (movesOf i) s)
  · exact run_modeAdvanced _ { s with loc := l, todo := movesOf i }
  · exact absurd hadv hi

/-! ## MODE stays in the cycle -/

theorem nextMode_lt (m : ModeIndex) : (nextMode m).toNat < params.totalModes := by
  have hlt : (m.toNat + 1) % 13 < 13 := Nat.mod_lt _ (by decide)
  have hv : (nextMode m).toNat = (m.toNat + 1) % 13 % 256 := BitVec.toNat_ofNat _ _
  show (nextMode m).toNat < 13
  omega

/-- Transitions do not leave the 13-mode cycle (R218). -/
theorem ModeAdvanced.mode_lt {s t : State} (h : ModeAdvanced s t) (hs : s.mode.toNat < params.totalModes) :
    t.mode.toNat < params.totalModes := by
  obtain ⟨k, -, hm⟩ := h
  rw [hm]
  cases k with
  | zero => exact hs
  | succ k =>
    rw [Function.iterate_succ_apply']
    exact nextMode_lt _

theorem exec_mode_lt {i : Instr} {s t : State} (h : exec i s = .next t) (hs : s.mode.toNat < params.totalModes) :
    t.mode.toNat < params.totalModes := by
  by_cases hi : i = .advance
  · subst hi
    rw [exec_advance_eq h]
    split
    · exact hs
    · exact (runHandler_modeAdvanced _ (takeEdge s)).mode_lt (by simpa using hs)
  · exact (exec_modeAdvanced hi h).mode_lt hs

/-! ## The main flow's part of the invariant -/

/-- What the invariant says of the main flow's registers; it holds at the end of each operation's moves. -/
structure RegistersSound (s : State) : Prop where
  buf : Memory.wf s.buf = true
  sum : s.sum.toNat = Memory.total s.buf params.filterN
  band : legalBand s.ppW = true
  clk : s.clk = 0

theorem registersSound_atRest_mainView {s : State} : RegistersSound (atRest (mainView s)) ↔ RegistersSound s :=
  ⟨fun ⟨hb, hs, hw, hc⟩ => ⟨hb, hs, hw, hc⟩, fun ⟨hb, hs, hw, hc⟩ => ⟨hb, hs, hw, hc⟩⟩

theorem registersSound_atRest {s : State} : RegistersSound (atRest s) ↔ RegistersSound s :=
  ⟨fun ⟨hb, hs, hw, hc⟩ => ⟨hb, hs, hw, hc⟩, fun ⟨hb, hs, hw, hc⟩ => ⟨hb, hs, hw, hc⟩⟩

/-- A list of moves that leads from sound registers to sound registers. -/
def KeepsSound (ms : List Move) : Prop := ∀ s, RegistersSound s → RegistersSound (doMoves ms s)

theorem KeepsSound.append {l k : List Move} (hl : KeepsSound l) (hk : KeepsSound k) : KeepsSound (l ++ k) := fun s h => by
  rw [doMoves_append]
  exact hk _ (hl s h)

theorem KeepsSound.flatMap {f : Nat → List Move} (hf : ∀ n, KeepsSound (f n)) : ∀ ns : List Nat, KeepsSound (ns.flatMap f)
  | [] => fun _ h => h
  | n :: ns => (hf n).append (.flatMap hf ns)

/-- Moves that write neither the filter, nor PINGPONG's registers, nor the lines keep the registers sound. -/
theorem keepsSound_of_unwritten {ms : List Move} (hf : ms.any (·.writes .filter) = false)
    (hp : ms.any (·.writes .pingpong) = false) (hl : ms.any (·.writes .lines) = false) : KeepsSound ms := by
  intro s hs
  obtain ⟨hbuf, -, hsum⟩ := doMoves_unchanged s hf
  obtain ⟨hw, -⟩ := doMoves_unchanged s hp
  obtain ⟨-, hclk, -⟩ := doMoves_unchanged s hl
  exact ⟨by rw [hbuf, hs.buf], by rw [hsum, hbuf, hs.sum], by rw [hw, hs.band], by rw [hclk, hs.clk]⟩

/-- RENDER ends with CLK low (R120, D8). -/
theorem keepsSound_renderMoves : KeepsSound renderMoves := fun s h => by
  rw [doMoves_renderMoves]
  exact ⟨h.buf, h.sum, h.band, rfl⟩

theorem keepsSound_showMoves (k : PatternRule) : KeepsSound (showMoves k) := fun s h => by
  rw [doMoves_showMoves]
  exact ⟨h.buf, h.sum, h.band, rfl⟩

theorem keepsSound_frameMoves (k : PatternRule) (ms : Nat) : KeepsSound (frameMoves k ms) := fun s h => by
  rw [doMoves_frameMoves]
  exact ⟨h.buf, h.sum, h.band, rfl⟩

/-- Replacing one slot keeps SUM the sum of the slots: neither the subtraction nor the addition wraps (R134). -/
theorem afterFilter_sum (v : Sample) {s : State} (h : RegistersSound s) :
    (afterFilter v s).sum.toNat = Memory.total (afterFilter v s).buf params.filterN := by
  have hcur := cursor_lt s.cur
  have hw : Memory.total (Memory.write s.buf s.cur.toNat v) 16 + (Memory.read s.buf s.cur.toNat).toNat =
      Memory.total s.buf 16 + v.toNat := Memory.total_write h.buf hcur
  have hr : (Memory.read s.buf s.cur.toNat).toNat ≤ Memory.total s.buf 16 := Memory.read_le_total hcur
  have hle : Memory.total s.buf 16 ≤ 255 * 16 := Memory.total_le
  have hv := sample_lt v
  have hold := sample_lt (Memory.read s.buf s.cur.toNat)
  have hsum : s.sum.toNat = Memory.total s.buf 16 := h.sum
  show (s.sum - (Memory.read s.buf s.cur.toNat).setWidth 16 + v.setWidth 16).toNat =
    Memory.total (Memory.write s.buf s.cur.toNat v) 16
  simp only [BitVec.toNat_add, BitVec.toNat_sub, BitVec.toNat_setWidth]
  omega

theorem keepsSound_fupdateMoves : KeepsSound fupdateMoves := fun s h => by
  rw [doMoves_fupdateMoves]
  exact ⟨Memory.wf_write (cursor_lt s.cur) h.buf, afterFilter_sum s.loc.s h, h.band, h.clk⟩

theorem keepsSound_sampleMoves : KeepsSound sampleMoves := keepsSound_of_unwritten rfl rfl rfl

theorem keepsSound_finish : KeepsSound [.finish] := fun _ h => ⟨h.buf, h.sum, h.band, h.clk⟩

theorem keepsSound_compositeMoves (k : PatternRule) : KeepsSound (compositeMoves k) :=
  ((keepsSound_sampleMoves.append keepsSound_fupdateMoves).append (keepsSound_showMoves k)).append keepsSound_finish

/-- The flip tests come before the move, so the width turns at 1 and at 4 and never leaves them (R183, R185). -/
theorem legalBand_ppMoved (w : BitVec 3) (d : PpDir) (h : legalBand w = true) :
    legalBand (ppMoved w (ppFlipped w d)) = true := by
  revert w
  cases d <;> decide

theorem keepsSound_ppStep : KeepsSound [.ppFlip, .ppMove] := fun s h =>
  ⟨h.buf, h.sum, legalBand_ppMoved s.ppW s.ppDir h.band, h.clk⟩

theorem keepsSound_sparkleMoves : KeepsSound sparkleMoves := keepsSound_of_unwritten rfl rfl rfl

/-- The moves of every operation keep the registers sound. -/
theorem keepsSound_movesOf (i : Instr) : KeepsSound (movesOf i) := by
  cases i with
  | vu | inverse | center | default14 | default16 | default32 | default64 | default128 =>
    exact keepsSound_compositeMoves _
  | off => exact (keepsSound_showMoves _).append keepsSound_finish
  | knight =>
    exact (keepsSound_frameMoves _ _).append (keepsSound_of_unwritten rfl rfl rfl)
  | pingpong => exact (keepsSound_frameMoves _ _).append (keepsSound_ppStep.append keepsSound_finish)
  | raindrop =>
    have hdraw : KeepsSound [.drawIndex] := keepsSound_of_unwritten rfl rfl rfl
    exact (((keepsSound_frameMoves _ _).append hdraw).append (keepsSound_showMoves _)).append keepsSound_finish
  | spectrum => exact (keepsSound_sampleMoves.append (keepsSound_showMoves _)).append keepsSound_finish
  | waveform =>
    exact (keepsSound_sampleMoves.append (keepsSound_showMoves _)).append
      (keepsSound_of_unwritten rfl rfl rfl)
  | heartbeat => exact (KeepsSound.flatMap (fun f => keepsSound_frameMoves _ _) _).append keepsSound_finish
  | fireworks =>
    have hlaunch : KeepsSound launchMoves := .flatMap (fun f => keepsSound_frameMoves _ _) _
    have hfade : KeepsSound fadeMoves := .flatMap (fun f => keepsSound_frameMoves _ _) _
    exact (((hlaunch.append (keepsSound_frameMoves _ _)).append hfade).append (keepsSound_frameMoves _ _)).append
      keepsSound_finish
  | strobe => exact ((keepsSound_frameMoves _ _).append (keepsSound_frameMoves _ _)).append keepsSound_finish
  | sparkle | flash =>
    exact (keepsSound_sparkleMoves.append keepsSound_renderMoves).append
      (keepsSound_of_unwritten rfl rfl rfl)
  | render p => exact keepsSound_showMoves _
  | sample => exact keepsSound_sampleMoves
  | fupdate v => exact keepsSound_fupdateMoves
  | advance => exact fun _ h => h

/-- Every operation, whatever lands in it, keeps the registers sound. -/
theorem exec_registersSound {i : Instr} {s t : State} (h : exec i s = .next t) (hs : RegistersSound s) :
    RegistersSound t := by
  obtain ⟨u, hu, ht⟩ := exec_atRest h
  have hsu : RegistersSound u := by
    rw [← registersSound_atRest, hu]
    exact registersSound_atRest_mainView.2 hs
  have hmoves := keepsSound_movesOf i u hsu
  rw [← registersSound_atRest, ← ht] at hmoves
  exact registersSound_atRest_mainView.1 hmoves

/-! ## What DISPATCH selects ends at DISPATCH with nothing in flight -/

theorem movesOf_ends_with_finish {i : Instr} (h : i.selectable = true) : ∃ ms, movesOf i = ms ++ [.finish] := by
  rw [← List.getLast?_eq_some_iff]
  cases i with
  | render | sample | fupdate | advance => cases h
  | heartbeat | fireworks => exact List.getLast?_concat
  | _ => rfl

theorem decodeMode_selectable (m : ModeIndex) : (decodeMode m).selectable = true := by
  revert m
  decide

/-- The core is idle: the main flow at DISPATCH with nothing in flight and no local value (R21, R31), the handler idle (R32). -/
structure CoreIdle (s : State) : Prop where
  seq : s.seq = .atDispatch
  hseq : s.hseq = .idle
  todo : s.todo = []
  loc : s.loc = .none

/-- A selected operation leaves the core idle, from wherever it was entered. -/
theorem exec_selectable_coreIdle {i : Instr} {s t : State} (hi : i.selectable = true) (h : exec i s = .next t) : CoreIdle t := by
  rcases exec_cases h with ⟨-, op, rfl⟩ | ⟨hf, -⟩ | ⟨rfl, -⟩
  · obtain ⟨ms, hms⟩ := movesOf_ends_with_finish hi
    have hv : mainView (perform op (movesOf i) s) = atRest (doMoves ms (enter op (ms ++ [.finish]) (mainView s))) := by
      rw [hms, perform_finish]
    exact ⟨congrArg State.seq hv, perform_hseq op s (by simp [hms]), congrArg State.todo hv, congrArg State.loc hv⟩
  · rw [hi] at hf
    cases hf
  · cases hi

/-- ADVANCE takes an idle core to an idle core. -/
theorem exec_advance_coreIdle {s t : State} (h : exec .advance s = .next t) (hs : CoreIdle s) : CoreIdle t := by
  have ht : t = handlerToEnd (takeEdge s) := by
    have hn := exec_advance_eq h
    rwa [hact_eq_false_iff.2 hs.hseq] at hn
  have hv : mainView t = mainView s := by rw [ht, handlerToEnd_mainView, mainView_takeEdge]
  exact ⟨(congrArg State.seq hv).trans hs.seq, ht ▸ handlerToEnd_hseq _, (congrArg State.todo hv).trans hs.todo,
    (congrArg State.loc hv).trans hs.loc⟩

/-! ## The step -/

/-- The invariant is: MODE in the cycle, sound registers, and an idle core. -/
theorem betweenOperations_iff {s : State} :
    BetweenOperations s ↔ s.mode.toNat < params.totalModes ∧ RegistersSound s ∧ CoreIdle s :=
  ⟨fun h => ⟨h.mode, ⟨h.buf, h.sum, h.band, h.clk⟩, ⟨h.seq, h.hseq, h.todo, h.loc⟩⟩,
   fun ⟨hm, hr, ha⟩ =>
    { mode := hm, buf := hr.buf, sum := hr.sum, band := hr.band, clk := hr.clk,
      seq := ha.seq, hseq := ha.hseq, todo := ha.todo, loc := ha.loc }⟩

/-- The invariant does not speak of the notification schedule. -/
theorem BetweenOperations.withEdges {s : State} (h : BetweenOperations s) (es : List Nat) :
    BetweenOperations (s.withEdges es) :=
  { mode := h.mode, buf := h.buf, sum := h.sum, band := h.band, clk := h.clk,
    seq := h.seq, hseq := h.hseq, todo := h.todo, loc := h.loc }

/-- What an idle core does in a step: it takes the EDGE that is due, or performs the operation that MODE selects. -/
theorem step_of_coreIdle {s : State} (h : CoreIdle s) :
    ∃ i es, (i = .advance ∨ i.selectable = true) ∧ step s = exec i (s.withEdges es) := by
  have hs : step s = if s.edgeDue then exec .advance s.popEdge else exec (selected s) (dispatched s) := by
    simp [step, h.seq, hact_eq_false_iff.2 h.hseq]
  by_cases he : s.edgeDue = true
  · exact ⟨.advance, s.env.edges.tail, .inl rfl, by rw [hs, if_pos he]; rfl⟩
  · exact ⟨selected s, countDown s.env.edges, .inr (decodeMode_selectable s.mode), by rw [hs, if_neg he]; rfl⟩

/-- Settles O55: whatever is performed keeps MODE in the cycle and the registers sound, and ends with an idle core. -/
theorem everyStepKeepsTheInvariant : Obligations.EveryStepKeepsTheInvariant := by
  intro s t hs hstep
  obtain ⟨-, -, hidle⟩ := betweenOperations_iff.1 hs
  obtain ⟨i, es, hi, he⟩ := step_of_coreIdle hidle
  obtain ⟨hm, hr, ha⟩ := betweenOperations_iff.1 (hs.withEdges es)
  have hexec : exec i (s.withEdges es) = .next t := he ▸ hstep
  refine betweenOperations_iff.2 ⟨exec_mode_lt hexec hm, exec_registersSound hexec hr, ?_⟩
  rcases hi with rfl | hsel
  · exact exec_advance_coreIdle hexec ha
  · exact exec_selectable_coreIdle hsel hexec

/-- From a state with the invariant a step answers a next state: the band width is legal (R185, R210). -/
theorem step_next {s : State} (hs : BetweenOperations s) : ∃ t, step s = .next t := by
  obtain ⟨-, -, hidle⟩ := betweenOperations_iff.1 hs
  obtain ⟨i, es, -, he⟩ := step_of_coreIdle hidle
  rw [he]
  exact exec_next_of_legalBand i hs.band

/-- Settles O56, by induction on the number of steps, each of which keeps the invariant (O55). -/
theorem theCoreNeverStops : Obligations.TheCoreNeverStops := by
  intro s hs n
  induction n generalizing s with
  | zero => exact ⟨s, rfl⟩
  | succ n ih =>
    obtain ⟨t, ht⟩ := step_next hs
    rw [coreRun_next Sys2Proof.core n s t ht]
    exact ih t (everyStepKeepsTheInvariant s t hs ht)

/-- Settles O9: the step resumes the operation, and its end puts SEQ and the local values back (R31, R148). -/
theorem operationInFlightRunsToCompletion : Obligations.OperationInFlightRunsToCompletion := by
  intro s op k hseq
  refine ⟨resume s, by simp [step, hseq], rfl, ?_⟩
  calc mainView (resume s) = endOperation (mainView (runToEnd s)) := rfl
    _ = endOperation { doMoves s.todo (mainView s) with todo := [] } := by rw [runToEnd_mainView]
    _ = atRest (doMoves s.todo (mainView s)) := rfl

/-- Settles O43: the tick is the handler's move, whatever EDGEs arrive in it. -/
theorem mainFlowIsFrozenWhileTheHandlerRuns : Obligations.MainFlowIsFrozenWhileTheHandlerRuns :=
  fun _ h => ⟨tick_active_mainView h, tick_active_left h⟩

/-! ## The events of one move -/

/-- A move puts its events on the log. -/
theorem doMove_log (m : Move) (s : State) : (doMove m s).log = mainLog (moveEvents m s) ++ s.log := by
  cases m with
  | sparkleIndex =>
    simp only [doMove, moveEvents]
    split <;> simp [drawIndex, mainLog]
  | _ => simp [doMove, moveEvents, mainLog, driveLine, convert, drawCoin, drawIndex]

/-- A move but the end of the operation advances SEQ's step by its events (R31). -/
theorem doMove_seq {m : Move} (s : State) (h : m ≠ .finish) :
    (doMove m s).seq = s.seq.advanceBy (moveEvents m s).length := by
  cases m with
  | finish => contradiction
  | sparkleIndex =>
    simp only [doMove, moveEvents]
    split <;> simp [drawIndex, Seq.advance_eq, Seq.advanceBy_zero]
  | _ =>
    simp [doMove, moveEvents, driveLine, convert, drawCoin, drawIndex, Seq.advance_eq, Seq.advanceBy_zero]

/-- A move's events do not depend on the moves still to come. -/
theorem moveEvents_withTodo (m : Move) (s : State) (ts : List Move) :
    moveEvents m { s with todo := ts } = moveEvents m s := by
  cases m <;> rfl

/-- Settles O45: the tick is the main flow's move, and a move's log and SEQ are those of its events. -/
theorem eachEventAdvancesTheSequencer : Obligations.EachEventAdvancesTheSequencer := by
  intro s op k m ms hidle hedges hseq htodo
  have ht : tick s = (doMove m { s with todo := ms }).movePassed := by
    rw [tick_idle s (hact_eq_false_iff.2 hidle) hedges, mainMove, htodo]
  rw [ht, movePassed_todo, movePassed_log, movePassed_seq, doMove_todo, doMove_log, moveEvents_withTodo]
  refine ⟨rfl, rfl, ?_⟩
  by_cases hm : m = .finish
  · rw [if_pos hm, hm]; rfl
  · rw [if_neg hm, doMove_seq _ hm, moveEvents_withTodo]
    exact congrArg (Seq.advanceBy · _) hseq

/-- Settles O46: each clause is one group of registers, left alone by every operation that is not its owner. -/
theorem registersAreWrittenByTheirOwnersOnly : Obligations.RegistersAreWrittenByTheirOwnersOnly := by
  intro i s t h
  exact ⟨fun hi => exec_unchanged .knight h (beq_false_of_ne hi), fun hi => exec_unchanged .pingpong h (beq_false_of_ne hi),
    fun hi => exec_unchanged .waveform h (beq_false_of_ne hi), fun hi => exec_unchanged .filter h hi⟩

/-- Settles O49: the run's transitions are paid for by the handler runs pending at its start. -/
theorem modeMovesOnlyByTransitions : Obligations.ModeMovesOnlyByTransitions := by
  intro i s t hi h
  obtain ⟨k, hk, hm⟩ := exec_modeAdvanced hi h
  have hact : s.hact.toNat = if s.hact then 1 else 0 := by cases s.hact <;> rfl
  unfold pendingRuns at hk
  exact ⟨k, by omega, hm⟩

/-- Settles O53: each register of the reset state reads as R50 gives it; no cell of the buffer is listed. -/
theorem resetLeavesModeZeroAndAnEmptyFilter : Obligations.ResetLeavesModeZeroAndAnEmptyFilter :=
  ⟨rfl, fun _ => rfl, rfl, rfl, rfl, rfl, rfl, rfl, rfl, rfl, rfl, rfl, rfl, rfl⟩

/-- Settles O54: MODE 0 is in the cycle, an empty buffer sums to 0, and nothing is in flight. -/
theorem invariantHoldsAtReset : Obligations.InvariantHoldsAtReset :=
  { mode := by decide, buf := rfl, sum := rfl, band := rfl, clk := rfl, seq := rfl, hseq := rfl, todo := rfl, loc := rfl }

end Sys2Proof.Machine

/-! # The two flows cannot learn of one another, and what an operation stores -/

namespace Sys2Proof.Machine

/-! ## The main flow's part after an operation is a function of the main flow's part before it -/

theorem perform_mainView_congr (op : ModeOp) (ms : List Move) {s s' : State} (h : mainView s = mainView s') :
    mainView (perform op ms s') = mainView (perform op ms s) := by
  rw [perform_mainView, perform_mainView, mainView_enter, mainView_enter, h]

theorem inPlace_mainView_congr (ms : List Move) {s s' : State} (h : mainView s = mainView s') :
    mainView (inPlace ms s') = mainView (inPlace ms s) := by
  rw [inPlace_mainView, inPlace_mainView, h]

/-- ADVANCE, seen from the main flow, does nothing (R217). -/
theorem exec_advance_mainView {s t : State} (h : exec .advance s = .next t) : mainView t = mainView s := by
  rw [exec_advance_eq h]
  split
  · rfl
  · rw [handlerToEnd_mainView, mainView_takeEdge]

/-- PINGPONG answers a next state at a legal band width only (U16; log 13). -/
theorem exec_pingpong_next_iff {s t : State} :
    exec .pingpong s = .next t ↔ legalBand s.ppW = true ∧ perform .pingpong pingpongMoves s = t := by
  show execPingpong s = .next t ↔ _
  unfold execPingpong
  split
  next hw => simp [hw]
  next hw => simp [hw]

/-- Settles O59: what an operation performs, and PINGPONG's guard, read the main flow's part alone. -/
theorem mainFlowIsIndependentOfTheHandler : Obligations.MainFlowIsIndependentOfTheHandler := by
  intro i s s' t hv h
  cases i with
  | advance =>
    refine ⟨_, rfl, ?_⟩
    rw [exec_advance_mainView rfl, exec_advance_mainView h, hv]
  | pingpong =>
    obtain ⟨hw, rfl⟩ := exec_pingpong_next_iff.1 h
    have hband : s.ppW = s'.ppW := (congrArg State.ppW hv :)
    exact ⟨_, exec_pingpong_next_iff.2 ⟨hband ▸ hw, rfl⟩, perform_mainView_congr _ _ hv⟩
  | render | sample =>
    cases h
    exact ⟨_, rfl, inPlace_mainView_congr _ hv⟩
  | fupdate v =>
    cases h
    have hl : s.loc = s'.loc := (congrArg State.loc hv :)
    have hu : mainView { s with loc := { s.loc with s := v } } = mainView { s' with loc := { s'.loc with s := v } } := by
      rw [← hl]
      exact congrArg (fun u : State => { u with loc := { s.loc with s := v } }) hv
    exact ⟨_, rfl, inPlace_mainView_congr _ hu⟩
  | off | vu | knight | inverse | center | raindrop | spectrum | waveform | heartbeat | fireworks | strobe | sparkle | flash
  | default14 | default16 | default32 | default64 | default128 =>
    cases h
    exact ⟨_, rfl, perform_mainView_congr _ _ hv⟩

/-! ## The handler's part of a state, as a state of its own -/

/-- A state without what the main flow owns: what is left is MODE, the handler's place, its levels and events, and the
notification schedule. Beside `mainView`, and a state too, so that the machine itself runs on it. -/
def handlerOnly (s : State) : State :=
  { State.reset with
    mode := s.mode, hseq := s.hseq, log := handlerEntries s.log,
    env := { Env.empty with btn := s.env.btn, edges := s.env.edges, btnCount := s.env.btnCount } }

theorem handlerOnly_eq_iff {s s' : State} :
    handlerOnly s = handlerOnly s' ↔ handlerView s = handlerView s' ∧ s.env.edges = s'.env.edges := by
  simp only [handlerOnly, handlerView, State.mk.injEq, Env.mk.injEq, HandlerView.mk.injEq]
  tauto

theorem handlerEntries_handler (e : Event) (l : List Entry) :
    handlerEntries (⟨.handler, e⟩ :: l) = ⟨.handler, e⟩ :: handlerEntries l := by
  simp [handlerEntries]

theorem handlerEntries_mainLog_append (es : List Event) (l : List Entry) :
    handlerEntries (mainLog es ++ l) = handlerEntries l := by
  simp [handlerEntries, mainLog]

/-! ## The handler's moves, the arrival of EDGEs and the tick read the handler's part alone -/

@[simp] theorem handlerOnly_nextLevel (s : State) : (handlerOnly s).nextLevel = s.nextLevel := rfl

@[simp] theorem handlerOnly_hseq (s : State) : (handlerOnly s).hseq = s.hseq := rfl

@[simp] theorem handlerOnly_hact (s : State) : (handlerOnly s).hact = s.hact := rfl

theorem handlerOnly_withEdges (es : List Nat) (s : State) :
    handlerOnly (s.withEdges es) = (handlerOnly s).withEdges es := rfl

theorem handlerOnly_movePassed (s : State) : handlerOnly s.movePassed = (handlerOnly s).movePassed := rfl

theorem handlerOnly_withHseq (h : HandlerPlace) (s : State) :
    handlerOnly { s with hseq := h } = { handlerOnly s with hseq := h } := rfl

theorem handlerOnly_handlerReturn (s : State) : handlerOnly (handlerReturn s) = handlerReturn (handlerOnly s) := rfl

theorem handlerOnly_confirmEdge (s : State) : handlerOnly (confirmEdge s) = confirmEdge (handlerOnly s) := rfl

theorem handlerOnly_takeEdge (s : State) : handlerOnly (takeEdge s) = takeEdge (handlerOnly s) := by
  unfold takeEdge
  rw [handlerOnly_hact]
  split <;> rfl

theorem handlerOnly_handlerEvent (e : Event) (s : State) :
    handlerOnly (s.handlerEvent e) = (handlerOnly s).handlerEvent e := by
  simp only [handlerOnly, State.handlerEvent, handlerEntries_handler]

theorem handlerOnly_takeLevel (s : State) : handlerOnly s.takeLevel = (handlerOnly s).takeLevel := by
  cases hb : s.env.btn <;> simp [State.takeLevel, handlerOnly, hb]

theorem handlerOnly_sampleLevel (s : State) : handlerOnly (sampleLevel s) = sampleLevel (handlerOnly s) := by
  rw [sampleLevel, handlerOnly_handlerEvent, handlerOnly_takeLevel, sampleLevel, handlerOnly_nextLevel]

theorem handlerOnly_handlerMove (s : State) : handlerOnly (handlerMove s) = handlerMove (handlerOnly s) := by
  cases hs : s.hseq with
  | idle => simp only [handlerMove, handlerOnly_hseq, hs]
  | firstCheck =>
    by_cases hc : s.nextLevel = 0 <;>
      simp only [handlerMove, handlerOnly_hseq, hs, handlerOnly_nextLevel, hc, if_true, if_false, handlerOnly_withHseq,
        handlerOnly_handlerReturn, handlerOnly_sampleLevel]
  | debounce => simp only [handlerMove, handlerOnly_hseq, hs, handlerOnly_withHseq, handlerOnly_handlerEvent]
  | secondCheck =>
    by_cases hc : s.nextLevel = 0 <;>
      simp only [handlerMove, handlerOnly_hseq, hs, handlerOnly_nextLevel, hc, if_true, if_false, handlerOnly_confirmEdge,
        handlerOnly_handlerReturn, handlerOnly_sampleLevel]

theorem handlerOnly_deliverFrom : ∀ (es : List Nat) (s : State),
    handlerOnly (deliverFrom es s) = deliverFrom es (handlerOnly s)
  | [], _ => rfl
  | 0 :: es, s => by rw [deliverFrom, handlerOnly_deliverFrom es, handlerOnly_takeEdge, deliverFrom]
  | (_ + 1) :: _, _ => rfl

theorem handlerOnly_deliver (s : State) : handlerOnly (deliver s) = deliver (handlerOnly s) :=
  handlerOnly_deliverFrom s.env.edges s

/-- A move of the main flow touches nothing of the handler's (R22, R217). -/
theorem handlerOnly_doMove (m : Move) (s : State) : handlerOnly (doMove m s) = handlerOnly s := by
  simp only [handlerOnly, doMove_mode, doMove_hseq, doMove_edges, doMove_btn, doMove_btnCount, doMove_log,
    handlerEntries_mainLog_append]

theorem handlerOnly_mainMove (s : State) : handlerOnly (mainMove s) = handlerOnly s := by
  unfold mainMove
  split
  · rfl
  · rw [handlerOnly_doMove]; rfl

/-- A tick makes of the handler's part what a tick makes of that part alone, where the main flow has no move to make. -/
theorem handlerOnly_tick (s : State) : handlerOnly (tick s) = tick (handlerOnly s) := by
  simp only [tick, ← handlerOnly_deliver, handlerOnly_hact, handlerOnly_movePassed]
  split
  · rw [handlerOnly_handlerMove]
  · rw [handlerOnly_mainMove]; rfl

/-! ## Runs -/

theorem handlerOnly_runHandler : ∀ (n : Nat) (s : State), handlerOnly (runHandler n s) = runHandler n (handlerOnly s)
  | 0, _ => rfl
  | n + 1, s => by
    rw [runHandler, runHandler, handlerOnly_hact]
    split
    · rw [handlerOnly_runHandler n, handlerOnly_tick]
    · rfl

theorem handlerOnly_handlerToEnd (s : State) : handlerOnly (handlerToEnd s) = handlerToEnd (handlerOnly s) :=
  handlerOnly_runHandler s.hseq.left s

theorem mainMove_todo (s : State) : (mainMove s).todo = s.todo.tail := by
  unfold mainMove
  split
  next h => rw [h]; rfl
  next h => rw [doMove_todo, h]; rfl

/-- Whether a tick takes a move off the main flow's list is the handler's to say (R74, R220). -/
theorem tick_todo (s : State) : (tick s).todo = if (deliver (handlerOnly s)).hact then s.todo else s.todo.tail := by
  rw [← handlerOnly_deliver, handlerOnly_hact]
  simp only [tick, movePassed_todo]
  split
  · rw [handlerMove_todo, deliver_todo]
  · rw [mainMove_todo, deliver_todo]

/-- A run depends, for the handler's part, on how many moves the main flow has before it and not on which. -/
theorem run_handlerOnly_congr : ∀ (n : Nat) {s s' : State}, handlerOnly s = handlerOnly s' →
    s.todo.length = s'.todo.length → handlerOnly (run n s) = handlerOnly (run n s')
  | 0, _, _, h, _ => h
  | n + 1, s, s', h, hl => by
    have hd : s.todo.isEmpty = s'.todo.isEmpty := by
      rw [Bool.eq_iff_iff, List.isEmpty_iff_length_eq_zero, List.isEmpty_iff_length_eq_zero, hl]
    rw [run, run, hd]
    split
    · exact h
    · refine run_handlerOnly_congr n ?_ ?_
      · rw [handlerOnly_tick, handlerOnly_tick, h]
      · rw [tick_todo, tick_todo, h]
        split
        · exact hl
        · rw [List.length_tail, List.length_tail, hl]

theorem runToEnd_handlerOnly_congr {s s' : State} (h : handlerOnly s = handlerOnly s')
    (hl : s.todo.length = s'.todo.length) : handlerOnly (runToEnd s) = handlerOnly (runToEnd s') := by
  have hb : budget s = budget s' := by
    have he : s.env.edges = s'.env.edges := (congrArg (fun u : State => u.env.edges) h :)
    have hq : s.hseq = s'.hseq := (congrArg State.hseq h :)
    rw [budget, budget, hl, he, hq]
  rw [runToEnd, runToEnd, hb]
  exact run_handlerOnly_congr _ h hl

theorem exec_advance_handlerOnly {s t : State} (h : exec .advance s = .next t) :
    handlerOnly t = if (handlerOnly s).hact then handlerOnly s else handlerToEnd (takeEdge (handlerOnly s)) := by
  rw [exec_advance_eq h, handlerOnly_hact]
  split
  · rfl
  · rw [handlerOnly_handlerToEnd, handlerOnly_takeEdge]

/-- Every operation but ADVANCE is, for the handler's part, a run of its moves from that part. -/
theorem exec_handlerOnly {i : Instr} {s t : State} (hi : i ≠ .advance) (h : exec i s = .next t) :
    ∃ u, handlerOnly u = handlerOnly s ∧ u.todo = movesOf i ∧ handlerOnly t = handlerOnly (runToEnd u) := by
  rcases exec_cases h with ⟨-, op, rfl⟩ | ⟨-, -, l, rfl⟩ | ⟨hadv, -⟩
  · exact ⟨enter op (movesOf i) s, rfl, rfl, rfl⟩
  · exact ⟨{ s with loc := l, todo := movesOf i }, rfl, rfl, rfl⟩
  · exact absurd hadv hi

/-- Settles O60: both runs start from one handler part with the same number of moves before them. -/
theorem handlerIsIndependentOfTheMainFlow : Obligations.HandlerIsIndependentOfTheMainFlow := by
  intro i s s' t t' hv he h h'
  have hs : handlerOnly s = handlerOnly s' := handlerOnly_eq_iff.2 ⟨hv, he⟩
  refine handlerOnly_eq_iff.1 ?_
  by_cases hi : i = .advance
  · subst hi
    rw [exec_advance_handlerOnly h, exec_advance_handlerOnly h', hs]
  · obtain ⟨u, hu, hm, ht⟩ := exec_handlerOnly hi h
    obtain ⟨u', hu', hm', ht'⟩ := exec_handlerOnly hi h'
    rw [ht, ht']
    exact runToEnd_handlerOnly_congr (by rw [hu, hu', hs]) (by rw [hm, hm'])

/-! ## What an operation stores -/

/-- FUPDATE stands once in the moves of an operation that uses the filter, and nothing before or behind it writes the filter. -/
theorem movesOf_usesFilter {i : Instr} (h : usesFilter i = true) : ∃ pre post, movesOf i = pre ++ fupdateMoves ++ post ∧
    pre.any (·.writes .filter) = false ∧ post.any (·.writes .filter) = false := by
  cases i with
  | fupdate v => exact ⟨[], [], rfl, rfl, rfl⟩
  | vu | inverse | center | default14 | default16 | default32 | default64 | default128 =>
    exact ⟨sampleMoves, showMoves _ ++ postRenderMoves ++ [.finish], rfl, rfl, rfl⟩
  | _ => cases h

/-- The one store of FUPDATE goes to the cell CUR names at the start: the cursor moves on behind the store (R62, R133). -/
theorem doMoves_around_fupdate_buf {pre post : List Move} (hpre : pre.any (·.writes .filter) = false)
    (hpost : post.any (·.writes .filter) = false) (s : State) :
    ∃ v, (doMoves (pre ++ fupdateMoves ++ post) s).buf = Memory.write s.buf s.cur.toNat v := by
  obtain ⟨hbuf, hcur, -⟩ := doMoves_unchanged s hpre
  obtain ⟨hend, -, -⟩ := doMoves_unchanged (doMoves fupdateMoves (doMoves pre s)) hpost
  refine ⟨(doMoves pre s).loc.s, ?_⟩
  rw [doMoves_append, doMoves_append, hend, doMoves_fupdateMoves, ← hbuf, ← hcur]
  rfl

/-- An operation that uses the filter stores one byte, in the cell CUR named at the start (R61, R62). -/
theorem exec_buf_of_usesFilter {i : Instr} {s t : State} (hi : usesFilter i = true) (h : exec i s = .next t) :
    ∃ v, t.buf = Memory.write s.buf s.cur.toNat v := by
  obtain ⟨u, hu, ht⟩ := exec_atRest h
  obtain ⟨pre, post, hms, hpre, hpost⟩ := movesOf_usesFilter hi
  obtain ⟨v, hv⟩ := doMoves_around_fupdate_buf hpre hpost u
  have hbuf : u.buf = s.buf := (congrArg State.buf hu :)
  have hcur : u.cur = s.cur := (congrArg State.cur hu :)
  have htbuf : t.buf = (doMoves (movesOf i) u).buf := (congrArg State.buf ht :)
  exact ⟨v, by rw [htbuf, hms, hv, hbuf, hcur]⟩

/-- Settles O47: an operation without FUPDATE leaves the buffer as it is, one with it writes the cell under the cursor. -/
theorem onlyTheSlotUnderTheCursorIsStored : Obligations.OnlyTheSlotUnderTheCursorIsStored := by
  intro i s t h
  by_cases hi : usesFilter i = true
  · obtain ⟨v, hv⟩ := exec_buf_of_usesFilter hi h
    refine ⟨fun a ha => ?_, fun hf => by rw [hi] at hf; cases hf⟩
    rw [hv, Memory.read_write_other ha]
  · obtain ⟨hbuf, -, -⟩ := exec_unchanged .filter h (Bool.eq_false_iff.2 hi)
    exact ⟨fun a _ => by rw [hbuf], fun _ a => by rw [hbuf]⟩

end Sys2Proof.Machine

/-! # The encoding: selectors and table rows, the serial frame, the LED view -/

namespace Sys2Proof

/-! ## Selectors -/

/-- The encoding law of every operation, from the one of its constructor (R97, R99). -/
theorem encoding_statement : ∀ i : Instr, Laws.Encoding.Statement i
  | .off => Laws.Encoding.off
  | .vu => Laws.Encoding.vu
  | .knight => Laws.Encoding.knight
  | .inverse => Laws.Encoding.inverse
  | .center => Laws.Encoding.center
  | .pingpong => Laws.Encoding.pingpong
  | .raindrop => Laws.Encoding.raindrop
  | .spectrum => Laws.Encoding.spectrum
  | .waveform => Laws.Encoding.waveform
  | .heartbeat => Laws.Encoding.heartbeat
  | .fireworks => Laws.Encoding.fireworks
  | .strobe => Laws.Encoding.strobe
  | .sparkle => Laws.Encoding.sparkle
  | .flash => Laws.Encoding.flash
  | .default14 m => Laws.Encoding.default14 m
  | .default16 m => Laws.Encoding.default16 m
  | .default32 m => Laws.Encoding.default32 m
  | .default64 m => Laws.Encoding.default64 m
  | .default128 m => Laws.Encoding.default128 m
  | .render p => Laws.Encoding.render p
  | .sample => Laws.Encoding.sample
  | .fupdate v => Laws.Encoding.fupdate v
  | .advance => Laws.Encoding.advance

/-- Settles O3: the encoding law of each operation, read on both sides of `selectable`. -/
theorem decodeOfEncodeIsTheOperation : Obligations.DecodeOfEncodeIsTheOperation := by
  intro i hwf
  have law := encoding_statement i hwf
  exact ⟨fun hs => by rwa [if_pos hs] at law, fun hs => by rwa [if_neg (Bool.eq_false_iff.1 hs)] at law⟩

/-- A word of 8 bits is a selector, read by the operation map (R90, R97). -/
theorem decodeTableWord_eight (w : Nat) : decodeTableWord 8 w = some (decodeMode (BitVec.ofNat _ w)) := rfl

/-- Settles O1: each word is a selector, and the operation map has its row at that value. -/
theorem selectorWordsDecodeToTheirOperations : Obligations.SelectorWordsDecodeToTheirOperations := by
  unfold Obligations.SelectorWordsDecodeToTheirOperations
  simp only [decodeTableWord_eight]
  exact ⟨rfl, rfl, rfl, rfl, rfl, rfl, rfl, rfl, rfl⟩

/-- The operation map and the opcode table agree, by going through the 256 selectors (R97, R98). -/
theorem tableReadings_eq_decodeMode : ∀ m : ModeIndex, tableReadings m = [decodeMode m] := by
  decide

/-- The instruction a row gives to a selector that matches it is well-formed, and that selector is its encoding (R97). -/
theorem modeTable_row_sound : ∀ r ∈ modeTable, ∀ m : ModeIndex, matchesRow r.mask r.pat m = true →
    (r.instr m).wf = true ∧ encode (r.instr m) = [m] := by
  have hfull (m : ModeIndex) : m &&& 0xFF#8 = m := BitVec.and_allOnes
  simp [modeTable, matchesRow, Instr.wf, encode, hfull]

/-- What a table row reads from a selector is well-formed and encodes to that selector. -/
theorem tableReadings_sound {m : ModeIndex} {i : Instr} (h : i ∈ tableReadings m) : i.wf = true ∧ encode i = [m] := by
  obtain ⟨r, hr, rfl⟩ := List.mem_map.1 h
  obtain ⟨hrow, hmatch⟩ := List.mem_filter.1 hr
  exact modeTable_row_sound r hrow m hmatch

/-- Settles O2: the decoder reads the one row the selector matches, and a row's reading is well-formed and encodes back. -/
theorem everySelectorHasExactlyOneTableRow : Obligations.EverySelectorHasExactlyOneTableRow := by
  intro m
  have hrow := tableReadings_eq_decodeMode m
  obtain ⟨hwf, henc⟩ := tableReadings_sound (hrow ▸ List.mem_singleton_self (decodeMode m))
  exact ⟨hrow, hwf, Machine.decodeMode_selectable m, henc⟩

end Sys2Proof

namespace Sys2Proof.Machine

/-! ## The serial frame -/

theorem readBit_eq_some_iff {es rest : List Event} {b : Bit} :
    readBit es = some (b, rest) ↔ es = bitEvents b ++ rest := by
  constructor
  · intro h
    unfold readBit at h
    split at h
    next b' x y rest' =>
      split at h
      next hxy =>
        obtain ⟨rfl, rfl⟩ := hxy
        cases h
        rfl
      next => cases h
    next => cases h
  · rintro rfl
    rfl

/-- The events of the `n` low bits of `v`, the most significant first (R66, R92). -/
def bitsEvents : Nat → Nat → List Event
  | 0, _ => []
  | n + 1, v => bitEvents (BitVec.ofBool (v.testBit n)) ++ bitsEvents n v

/-- A frame is LATCH low, the eight bits of the pattern, and LATCH high (R92). -/
theorem serialFrame_eq (p : Pattern) :
    serialFrame p = .line .latch 0 :: (bitsEvents params.numLeds p.toNat ++ [.line .latch 1]) := rfl

/-- Shifting `b` in behind `acc` gives the bits of `v` from `n` up iff `b` is bit `n` of `v` and `acc` the bits above it. -/
theorem div_two_pow_eq_shift_in_iff {v n acc : Nat} {b : Bit} :
    v / 2 ^ n = 2 * acc + b.toNat ↔ b = BitVec.ofBool (v.testBit n) ∧ v / 2 ^ (n + 1) = acc := by
  have hb : b.toNat < 2 := b.isLt
  rw [Nat.pow_succ, ← Nat.div_div_eq_div_mul, Nat.testBit_eq_decide_div_mod_eq, BitVec.toNat_eq, BitVec.toNat_ofBool]
  generalize v / 2 ^ n = x
  by_cases hx : x % 2 = 1 <;> simp [hx] <;> omega

/-- Reading `n` bits behind `acc` gives `v` exactly from the events of the `n` low bits of `v`, `acc` being the bits above. -/
theorem readBits_eq_some_iff {n acc v : Nat} {es rest : List Event} :
    readBits n acc es = some (v, rest) ↔ es = bitsEvents n v ++ rest ∧ v / 2 ^ n = acc := by
  induction n generalizing acc es with
  | zero => simp [readBits, bitsEvents, eq_comm, and_comm]
  | succ n ih =>
    have hstep : readBits (n + 1) acc es = some (v, rest) ↔
        ∃ b r, readBit es = some (b, r) ∧ readBits n (2 * acc + b.toNat) r = some (v, rest) := by
      rw [readBits]
      cases readBit es with
      | none => simp
      | some read => simp [Prod.ext_iff, and_assoc]
    simp only [hstep, readBit_eq_some_iff, ih, div_two_pow_eq_shift_in_iff, bitsEvents, List.append_assoc]
    constructor
    · rintro ⟨b, r, rfl, rfl, rfl, hacc⟩
      exact ⟨rfl, hacc⟩
    · rintro ⟨rfl, hacc⟩
      exact ⟨_, _, rfl, rfl, rfl, hacc⟩

/-- Reading a frame inverts writing one, both ways (R92). -/
theorem readFrame_eq_some_iff {es rest : List Event} {p : Pattern} :
    readFrame es = some (p, rest) ↔ es = serialFrame p ++ rest := by
  rw [serialFrame_eq]
  constructor
  · intro h
    unfold readFrame at h
    split at h
    next x es' =>
      split at h
      next hx =>
        split at h
        next v y rest' hbits =>
          split at h
          next hy =>
            obtain ⟨rfl, hv⟩ := readBits_eq_some_iff.1 hbits
            cases h
            have hlt : v < 2 ^ params.numLeds := (Nat.div_eq_zero_iff.1 hv).resolve_left (by decide)
            rw [BitVec.toNat_ofNat, Nat.mod_eq_of_lt hlt, hx, hy, List.cons_append, List.append_assoc, List.singleton_append]
          next => cases h
        next => cases h
      next => cases h
    next => cases h
  · rintro rfl
    have hbits : readBits params.numLeds 0 (bitsEvents params.numLeds p.toNat ++ .line .latch 1 :: rest) =
        some (p.toNat, .line .latch 1 :: rest) := readBits_eq_some_iff.2 ⟨rfl, Nat.div_eq_of_lt p.isLt⟩
    rw [List.cons_append, List.append_assoc, List.singleton_append, readFrame, if_pos rfl, hbits]
    simp

/-- Settles O4: the frame written is one that reads back. -/
theorem serialFrameReadsBack : Obligations.SerialFrameReadsBack := fun _ _ => readFrame_eq_some_iff.2 rfl

/-- Settles O5: what reads as a frame is a frame written. -/
theorem onlySerialFramesReadAsFrames : Obligations.OnlySerialFramesReadAsFrames := fun _ _ _ => readFrame_eq_some_iff.1

/-! ## The LED view -/

/-- A frame at the head of a trace shows as one R item (R102). -/
theorem ledViewFrom_serialFrame (n : Nat) (p : Pattern) (es : List Event) :
    ledViewFrom (n + 1) (serialFrame p ++ es) = .render p :: ledViewFrom n es := by
  have hread : readFrame (serialFrame p ++ es) = some (p, es) := readFrame_eq_some_iff.2 rfl
  rw [serialFrame_eq, List.cons_append] at hread ⊢
  simp only [ledViewFrom, hread]

/-- A delay at the head of a trace shows as one D item (R102). -/
theorem ledViewFrom_delay (n ms : Nat) (es : List Event) :
    ledViewFrom (n + 1) (.delay ms :: es) = .delay ms :: ledViewFrom n es := rfl

theorem ledEvents_cons (item : LedItem) (items : List LedItem) : ledEvents (item :: items) = item.events ++ ledEvents items :=
  List.flatMap_cons

theorem LedItem.events_length_pos (item : LedItem) : 0 < item.events.length := by
  cases item with
  | render p => rw [LedItem.events, serialFrame_eq, List.length_cons]; omega
  | delay ms => exact Nat.one_pos

/-- A bound of at least the number of events loses no item. -/
theorem ledViewFrom_ledEvents {n : Nat} {items : List LedItem} (h : (ledEvents items).length ≤ n) :
    ledViewFrom n (ledEvents items) = items := by
  induction items generalizing n with
  | nil => cases n <;> rfl
  | cons item items ih =>
    rw [ledEvents_cons, List.length_append] at h
    have hpos := item.events_length_pos
    obtain ⟨k, rfl⟩ : ∃ k, n = k + 1 := Nat.exists_eq_add_one.2 (by omega)
    have hrest := ih (n := k) (by omega)
    rw [ledEvents_cons]
    cases item with
    | render p => exact (ledViewFrom_serialFrame k p _).trans (congrArg _ hrest)
    | delay ms => exact (ledViewFrom_delay k ms _).trans (congrArg _ hrest)

/-- Settles O6: the view's bound is the number of events, which loses no item. -/
theorem ledViewReadsItemsBack : Obligations.LedViewReadsItemsBack := fun _ => ledViewFrom_ledEvents le_rfl

end Sys2Proof.Machine

/-! # The serializer: the frame RENDER sends, what each operation sends, and the LEDs on the wire -/

namespace Sys2Proof.Machine

/-! ## The main flow's trace -/

theorem flowTrace_main_eq (s : State) : s.flowTrace .main = (mainEntries s.log).reverse.map Entry.ev := rfl

/-- The events `mainLog` puts on a log are read off it in their order. -/
theorem events_mainLog (es : List Event) : (mainLog es).reverse.map Entry.ev = es := by
  simp [mainLog, Function.comp_def]

theorem mainEntries_append (l k : List Entry) : mainEntries (l ++ k) = mainEntries l ++ mainEntries k := List.filter_append ..

/-- What the main flow has put on the log stands at the end of its trace. -/
theorem flowTrace_main_of_mainEntries {s t : State} {es : List Event}
    (h : mainEntries t.log = mainLog es ++ mainEntries s.log) : t.flowTrace .main = s.flowTrace .main ++ es := by
  rw [flowTrace_main_eq, h, List.reverse_append, List.map_append, events_mainLog, flowTrace_main_eq]

/-! ## RENDER -/

/-- RENDER on the main flow's part: the frame, SEQ's 26 events, and the operand in the local `p` (R120). -/
theorem mainView_render (p : Pattern) (s : State) :
    mainView (inPlace (showMoves (.const p)) s) =
      { afterRender p (mainView s) with seq := s.seq.advanceBy 26, loc := { s.loc with p := p } } := by
  rw [inPlace_mainView, doMoves_showMoves]; rfl

theorem mainEntries_render (p : Pattern) (s : State) :
    mainEntries (inPlace (showMoves (.const p)) s).log = mainLog (serialFrame p) ++ mainEntries s.log :=
  (congrArg State.log (mainView_render p s) :)

/-- Settles O11: each line, and the trace, is read off the main flow's part of the outcome. -/
theorem renderSendsTheFrame : Obligations.RenderSendsTheFrame := by
  intro p s
  have hview := mainView_render p s
  exact ⟨_, rfl, flowTrace_main_of_mainEntries (mainEntries_render p s), (congrArg State.data hview :),
    (congrArg State.clk hview :), (congrArg State.latch hview :), hview⟩

/-! ## The frames, delays and conversions of an operation -/

/-- What is counted in a trace: the frames, the delays in their order, the conversions (R126, R132, R260). -/
@[ext] structure Tally where
  frames : Nat
  delays : List Nat
  conversions : Nat

/-- One tally behind another. -/
def Tally.append (a b : Tally) : Tally :=
  ⟨a.frames + b.frames, a.delays ++ b.delays, a.conversions + b.conversions⟩

/-- The tally of a trace. -/
def tallyOfEvents (es : List Event) : Tally := ⟨framesIn es, delaysIn es, conversionsIn es⟩

theorem tallyOfEvents_append (a b : List Event) :
    tallyOfEvents (a ++ b) = (tallyOfEvents a).append (tallyOfEvents b) := by
  simp [tallyOfEvents, Tally.append, framesIn, delaysIn, conversionsIn]

/-- The wait of a Delay move. -/
def Move.delay? : Move → Option Nat
  | .delay ms => some ms
  | _ => none

/-- The tally of a list of moves, read off the moves alone. -/
def tallyOfMoves (ms : List Move) : Tally :=
  ⟨ms.count (.line .latch 1), ms.filterMap Move.delay?, ms.count .adcConvert⟩

theorem tallyOfMoves_append (l k : List Move) :
    tallyOfMoves (l ++ k) = (tallyOfMoves l).append (tallyOfMoves k) := by
  simp [tallyOfMoves, Tally.append]

/-- Frames, delays and conversions come from their own moves: the other moves' events, whatever the state, count nothing. -/
theorem tallyOfEvents_moveEvents (m : Move) (s : State) : tallyOfEvents (moveEvents m s) = tallyOfMoves [m] := by
  cases m with
  | line l b =>
    have hframes : framesIn [.line l b] = [Move.line l b].count (.line .latch 1) := by
      simp [framesIn, List.count_singleton]
    exact Tally.ext hframes rfl rfl
  | sparkleIndex =>
    rw [moveEvents]
    split <;> rfl
  | _ => rfl

/-- The events of a list of moves, made one after another. -/
def movesEvents : List Move → State → List Event
  | [], _ => []
  | m :: ms, s => moveEvents m s ++ movesEvents ms (doMove m s)

theorem doMoves_log : ∀ (ms : List Move) (s : State), (doMoves ms s).log = mainLog (movesEvents ms s) ++ s.log
  | [], _ => rfl
  | m :: ms, s => by
    rw [doMoves_cons, doMoves_log ms, doMove_log, movesEvents, mainLog_append, List.append_assoc]

theorem tallyOfEvents_movesEvents : ∀ (ms : List Move) (s : State),
    tallyOfEvents (movesEvents ms s) = tallyOfMoves ms
  | [], _ => rfl
  | m :: ms, s => by
    rw [movesEvents, tallyOfEvents_append, tallyOfEvents_moveEvents, tallyOfEvents_movesEvents ms, ← tallyOfMoves_append]
    rfl

/-- A frame and its delay, whatever the pattern. -/
theorem tallyOfMoves_frameMoves (k : PatternRule) (ms : Nat) : tallyOfMoves (frameMoves k ms) = ⟨1, [ms], 0⟩ := rfl

/-- An animation sends one frame and performs one delay per entry of its table. -/
theorem tallyOfMoves_animation (k : Nat → PatternRule) (ms : Nat) : ∀ fs : List Nat,
    tallyOfMoves (fs.flatMap fun f => frameMoves (k f) ms) = ⟨fs.length, List.replicate fs.length ms, 0⟩
  | [] => rfl
  | f :: fs => by
    rw [List.flatMap_cons, tallyOfMoves_append, tallyOfMoves_frameMoves, tallyOfMoves_animation k ms fs]
    exact Tally.ext (Nat.add_comm ..) rfl rfl

/-- The tally R126, R132 and R260 give each operation is that of its moves. -/
theorem tallyOfMoves_movesOf (i : Instr) :
    tallyOfMoves (movesOf i) = ⟨renderCalls i, delaysOf i, if usesConverter i then 1 else 0⟩ := by
  cases i with
  | heartbeat =>
    rw [movesOf, heartbeatMoves, tallyOfMoves_append, tallyOfMoves_animation]
    rfl
  | fireworks =>
    simp only [movesOf, fireworksMoves, launchMoves, fadeMoves, tallyOfMoves_append, tallyOfMoves_animation,
      tallyOfMoves_frameMoves]
    rfl
  | _ => rfl

/-- The events an operation adds to the main flow's trace have the tally of its moves. -/
theorem exec_flowTrace_main {i : Instr} {s t : State} (h : exec i s = .next t) :
    ∃ es, t.flowTrace .main = s.flowTrace .main ++ es ∧ tallyOfEvents es = tallyOfMoves (movesOf i) := by
  obtain ⟨u, hu, ht⟩ := exec_atRest h
  have hulog : u.log = mainEntries s.log := (congrArg State.log hu :)
  have htlog : mainEntries t.log = (doMoves (movesOf i) u).log := (congrArg State.log ht :)
  rw [doMoves_log, hulog] at htlog
  exact ⟨_, flowTrace_main_of_mainEntries htlog, tallyOfEvents_movesEvents _ u⟩

/-- Settles O50: the moves of each operation hold its frames, delays and conversions. -/
theorem framesDelaysAndConversionsPerOperation : Obligations.FramesDelaysAndConversionsPerOperation := by
  intro i s t _ h
  obtain ⟨es, htrace, htally⟩ := exec_flowTrace_main h
  rw [tallyOfMoves_movesOf] at htally
  exact ⟨es, htrace, congrArg Tally.frames htally, congrArg Tally.delays htally, congrArg Tally.conversions htally⟩

/-! ## The device on the wire -/

/-- The outputs change at a rise of LATCH only, and then to the shift chain (R122, R123). -/
theorem Device.see_out (d : Device) (e : Event) :
    (d.see e).out = if e = .line .latch 1 ∧ d.latch = 0 then d.sr else d.out := by
  cases e with
  | line l b =>
    cases l with
    | data => rfl
    | clk => simp only [Device.see]; split <;> rfl
    | latch =>
      simp only [Device.see, Event.line.injEq, true_and, and_comm]
      split <;> rfl
  | delay | adc | rnd | btn => rfl

/-- Settles O51: at any other event the outputs are what they were. -/
theorem ledsChangeOnlyAtALatchRise : Obligations.LedsChangeOnlyAtALatchRise := by
  intro d e hchange
  by_cases hrise : e = .line .latch 1 ∧ d.latch = 0
  · exact ⟨hrise.1, hrise.2, by rw [Device.see_out, if_pos hrise]⟩
  · exact absurd (by rw [Device.see_out, if_neg hrise]) hchange

theorem Device.after_append (d : Device) (a b : List Event) : d.after (a ++ b) = (d.after a).after b := List.foldl_append ..

theorem Device.after_cons (d : Device) (e : Event) (es : List Event) : d.after (e :: es) = (d.see e).after es := rfl

theorem Device.after_singleton (d : Device) (e : Event) : d.after [e] = d.see e := rfl

/-- The device after one bit: it stands on the data line and has entered the shift chain at its low end (R123). -/
def Device.shiftIn (d : Device) (b : Bit) : Device := { d with sr := (d.sr <<< 1) ||| b.setWidth _, data := b }

/-- The three events of a bit shift it in, CLK being low before and after them (R121, R123). -/
theorem Device.after_bitEvents {d : Device} (hclk : d.clk = 0) (b : Bit) :
    d.after (bitEvents b) = d.shiftIn b := by
  simp [Device.after, Device.shiftIn, bitEvents, Device.see, Device.shift, hclk]

theorem Device.shiftIn_getLsbD (d : Device) (c : Bool) {k : Nat} (hk : k < params.patternW) :
    (d.shiftIn (BitVec.ofBool c)).sr.getLsbD k = if k = 0 then c else d.sr.getLsbD (k - 1) := by
  cases k with
  | zero => simp [Device.shiftIn]
  | succ k =>
    have hk' : k < 8 := Nat.lt_of_succ_lt hk
    simp [Device.shiftIn, hk, BitVec.getLsbD_eq_getElem hk']

/-- Shifting `n` bits in: they stand at the low end of the chain, in their places, and what was there has moved up by `n`. -/
theorem Device.after_bitsEvents (v : Nat) : ∀ (n : Nat) {d : Device}, d.clk = 0 →
    (d.after (bitsEvents n v)).clk = 0 ∧ (d.after (bitsEvents n v)).latch = d.latch ∧
      ∀ k < params.patternW, (d.after (bitsEvents n v)).sr.getLsbD k = if k < n then v.testBit k else d.sr.getLsbD (k - n)
  | 0, d, hclk => ⟨hclk, rfl, fun _ _ => rfl⟩
  | n + 1, d, hclk => by
    rw [bitsEvents, Device.after_append, Device.after_bitEvents hclk]
    obtain ⟨hc, hl, hsr⟩ := Device.after_bitsEvents v n (d := d.shiftIn (BitVec.ofBool (v.testBit n))) hclk
    refine ⟨hc, hl, fun k hk => ?_⟩
    rw [hsr k hk, Device.shiftIn_getLsbD _ _ (by omega)]
    rcases Nat.lt_trichotomy k n with h | rfl | h
    · rw [if_pos h, if_pos (by omega)]
    · simp
    · rw [if_neg (by omega), if_neg (by omega), if_neg (by omega), Nat.sub_sub]

/-- A whole frame: the outputs are its pattern, whatever the device held, if CLK was low (R121, R123). -/
theorem Device.after_serialFrame {d : Device} (hclk : d.clk = 0) (p : Pattern) :
    (d.after (serialFrame p)).out = p ∧ (d.after (serialFrame p)).clk = 0 := by
  have hlow : d.see (.line .latch 0) = { d with latch := 0 } := by simp [Device.see]
  obtain ⟨hc, hl, hsr⟩ := Device.after_bitsEvents p.toNat params.numLeds (d := { d with latch := 0 }) hclk
  have hframe : d.after (serialFrame p) =
      (Device.after { d with latch := 0 } (bitsEvents params.numLeds p.toNat)).see (.line .latch 1) := by
    rw [serialFrame_eq, Device.after_cons, hlow, Device.after_append, Device.after_singleton]
  generalize Device.after { d with latch := 0 } (bitsEvents params.numLeds p.toNat) = w at hc hl hsr hframe
  rw [hframe]
  constructor
  · rw [Device.see_out, if_pos ⟨rfl, hl⟩]
    exact BitVec.eq_of_getLsbD_eq fun k hk => by rw [hsr k hk, if_pos hk]; rfl
  · simp [Device.see, hl, hc]

/-! ## A frame with handler runs inside it -/

/-- The handler drives no line: of the entries, those that are the handler's are level reads and delays (R217). -/
def HandlerOffTheLines (es : List Entry) : Prop :=
  ∀ e ∈ es, e.flow = .handler → (∃ b, e.ev = .btn b) ∨ ∃ ms, e.ev = .delay ms

/-- The log of `t` is that of `s` with entries put on it in which the handler drives no line. -/
def LogGrows (s t : State) : Prop := ∃ es, t.log = es ++ s.log ∧ HandlerOffTheLines es

theorem LogGrows.of_log_eq {s t : State} (h : t.log = s.log) : LogGrows s t := ⟨[], h, nofun⟩

theorem LogGrows.trans {s t u : State} (h : LogGrows s t) (h' : LogGrows t u) : LogGrows s u := by
  obtain ⟨es, hlog, hes⟩ := h
  obtain ⟨es', hlog', hes'⟩ := h'
  refine ⟨es' ++ es, by rw [hlog', hlog, List.append_assoc], fun e he => ?_⟩
  exact (List.mem_append.1 he).elim (hes' e) (hes e)

theorem deliverFrom_log : ∀ (es : List Nat) (s : State), (deliverFrom es s).log = s.log
  | [], _ => rfl
  | 0 :: es, s => by rw [deliverFrom, deliverFrom_log es, takeEdge_log]
  | (_ + 1) :: _, _ => rfl

theorem sampleLevel_log (s : State) : (sampleLevel s).log = ⟨.handler, .btn s.nextLevel⟩ :: s.log := by
  simp [sampleLevel]

theorem handlerMove_logGrows (s : State) : LogGrows s (handlerMove s) := by
  have hread : LogGrows s (sampleLevel s) := ⟨[_], sampleLevel_log s, by simp [HandlerOffTheLines]⟩
  unfold handlerMove
  split
  · exact .of_log_eq rfl
  · split <;> exact hread
  · exact ⟨[⟨.handler, .delay params.debounceMs⟩], rfl, by simp [HandlerOffTheLines]⟩
  · split <;> exact hread

theorem mainMove_logGrows (s : State) : LogGrows s (mainMove s) := by
  unfold mainMove
  split
  · exact .of_log_eq rfl
  · exact ⟨_, doMove_log _ _, by simp [HandlerOffTheLines, mainLog]⟩

theorem tick_logGrows (s : State) : LogGrows s (tick s) := by
  refine (LogGrows.of_log_eq (deliverFrom_log s.env.edges s) : LogGrows s (deliver s)).trans ?_
  show LogGrows _ (State.movePassed (if (deliver s).hact then _ else _))
  split
  · exact handlerMove_logGrows _
  · exact mainMove_logGrows _

theorem run_logGrows : ∀ (n : Nat) (s : State), LogGrows s (run n s)
  | 0, _ => .of_log_eq rfl
  | n + 1, s => by
    rw [run]
    split
    · exact .of_log_eq rfl
    · exact (tick_logGrows s).trans (run_logGrows n _)

theorem inPlace_logGrows (ms : List Move) (s : State) : LogGrows s (inPlace ms s) := run_logGrows _ { s with todo := ms }

/-- The device sees of a trace only what the main flow put there, where the handler drives no line (R125). -/
theorem Device.after_eq_after_mainEntries (d : Device) : ∀ {es : List Entry}, HandlerOffTheLines es →
    d.after (es.reverse.map Entry.ev) = d.after ((mainEntries es).reverse.map Entry.ev)
  | [], _ => rfl
  | e :: es, h => by
    have ih := Device.after_eq_after_mainEntries d fun e' he' => h e' (List.mem_cons_of_mem _ he')
    obtain ⟨flow, ev⟩ := e
    rw [List.reverse_cons, List.map_append, Device.after_append, ih]
    cases flow with
    | main => rw [mainEntries_main, List.reverse_cons, List.map_append, Device.after_append]
    | handler =>
      rw [mainEntries_handler]
      obtain ⟨b, rfl⟩ | ⟨ms, rfl⟩ := h _ List.mem_cons_self rfl <;> rfl

/-- Settles O52: of the entries put on the log the device sees the main flow's, which are the frame. -/
theorem ledsShowTheRenderedPattern : Obligations.LedsShowTheRenderedPattern := by
  intro p s d hclk
  obtain ⟨es, hlog, hes⟩ := inPlace_logGrows (showMoves (.const p)) s
  have hmain : mainEntries es = mainLog (serialFrame p) := by
    have hview := mainEntries_render p s
    rw [hlog, mainEntries_append] at hview
    exact List.append_cancel_right hview
  have hdevice : d.after (es.reverse.map Entry.ev) = d.after (serialFrame p) := by
    rw [Device.after_eq_after_mainEntries d hes, hmain, events_mainLog]
  obtain ⟨hout, hlow⟩ := Device.after_serialFrame hclk p
  refine ⟨_, es.reverse.map Entry.ev, rfl, ?_, fun k _ => ?_, by rw [hdevice, hlow]⟩
  · rw [State.trace, hlog, List.reverse_append, List.map_append]; rfl
  · rw [hdevice, Device.lit, hout]

end Sys2Proof.Machine

/-! # The sampler and the volume filter: what SAMPLE and FUPDATE leave, and the window a run of FUPDATEs keeps -/

namespace Sys2Proof.Machine

/-! ## SAMPLE -/

/-- Bits 9 to 2 of a reading are the sample (R130). -/
theorem sampleOf_eq_extractLsb' (raw : Raw) : sampleOf raw = raw.extractLsb' 2 8 := rfl

theorem sampleOf_toNat (raw : Raw) : (sampleOf raw).toNat = raw.toNat / 4 := by
  have hraw := raw_lt raw
  have hval : (sampleOf raw).toNat = (raw.toNat >>> 2) % 256 := rfl
  rw [hval, Nat.shiftRight_eq_div_pow]
  omega

/-- SAMPLE on the main flow's part: the conversion, SEQ's one event, and the result in the local `s` (R130). -/
theorem mainView_sample (s : State) :
    mainView (inPlace sampleMoves s) =
      { afterConvert (mainView s) with seq := s.seq.advanceBy 1, loc := { s.loc with s := sampleOf s.nextRaw } } := by
  rw [inPlace_mainView, doMoves_sampleMoves]; rfl

/-- Settles O12: the result is read off the main flow's part of the outcome. -/
theorem sampleTakesTheTopEightBits : Obligations.SampleTakesTheTopEightBits := by
  intro s
  have hview := mainView_sample s
  have hs : (inPlace sampleMoves s).loc.s = sampleOf s.nextRaw := (congrArg (fun u : State => u.loc.s) hview :)
  exact ⟨_, rfl, by rw [hs, sampleOf_toNat], by rw [hs, sampleOf_eq_extractLsb'],
    by rw [hview, sampleOf_eq_extractLsb']⟩

/-! ## FUPDATE -/

/-- FUPDATE on the main flow's part: the filter's update, and the local values it leaves (R133). -/
theorem mainView_fupdate {v : Sample} {s t : State} (h : exec (.fupdate v) s = .next t) :
    mainView t = { afterFilter v (mainView s) with
      loc := { s.loc with s := v, old := Memory.read s.buf s.cur.toNat, avg := averageOf (afterFilter v s).sum } } := by
  obtain rfl := Host.Outcome.next.inj h
  rw [inPlace_mainView, doMoves_fupdateMoves]; rfl

theorem fupdate_sum {v : Sample} {s t : State} (h : exec (.fupdate v) s = .next t) :
    t.sum = s.sum - (Memory.read s.buf s.cur.toNat).setWidth _ + v.setWidth _ :=
  (congrArg State.sum (mainView_fupdate h) :)

theorem fupdate_buf {v : Sample} {s t : State} (h : exec (.fupdate v) s = .next t) :
    t.buf = Memory.write s.buf s.cur.toNat v := (congrArg State.buf (mainView_fupdate h) :)

theorem fupdate_cur {v : Sample} {s t : State} (h : exec (.fupdate v) s = .next t) :
    t.cur.toNat = (s.cur.toNat + 1) % 16 := by
  have hcur : t.cur = s.cur + 1 := (congrArg State.cur (mainView_fupdate h) :)
  rw [hcur, BitVec.toNat_add]; rfl

theorem fupdate_avg {v : Sample} {s t : State} (h : exec (.fupdate v) s = .next t) : t.loc.avg = averageOf t.sum := by
  have havg : t.loc.avg = averageOf (afterFilter v s).sum := (congrArg (fun u : State => u.loc.avg) (mainView_fupdate h) :)
  rw [havg, fupdate_sum h]; rfl

/-- Settles O13: the memory laws for the slots, and the rest is read off the main flow's part of the outcome. -/
theorem fupdateReplacesTheOldestSample : Obligations.FupdateReplacesTheOldestSample := by
  intro v s hwf
  obtain ⟨t, h⟩ : ∃ t, exec (.fupdate v) s = .next t := ⟨_, rfl⟩
  have hbuf := fupdate_buf h
  refine ⟨t, h, fupdate_sum h, ?_, fun a ha => ?_, fupdate_cur h, ?_, fupdate_avg h, ?_⟩
  · rw [hbuf, Memory.read_write_same hwf]
  · rw [hbuf, Memory.read_write_other ha]
  · rw [hbuf]; exact Memory.wf_write (cursor_lt s.cur) hwf
  · show mainView t = { mainView s with
      sum := (mainView t).sum, buf := (mainView t).buf, cur := (mainView t).cur,
      loc := { s.loc with s := v, old := (mainView t).loc.old, avg := (mainView t).loc.avg } }
    rw [mainView_fupdate h]; rfl

/-- Where the slot taken out is a part of a SUM of at most 4080, the update neither underflows nor overflows (R134). -/
theorem fupdate_sum_toNat {v : Sample} {s t : State} (h : exec (.fupdate v) s = .next t) (hsum : s.sum.toNat ≤ 4080)
    (hold : (Memory.read s.buf s.cur.toNat).toNat ≤ s.sum.toNat) :
    t.sum.toNat = s.sum.toNat - (Memory.read s.buf s.cur.toNat).toNat + v.toNat := by
  have hv := sample_lt v
  have hadd : t.sum.toNat = ((65536 - (Memory.read s.buf s.cur.toNat).toNat % 65536 + s.sum.toNat) % 65536
      + v.toNat % 65536) % 65536 := by
    rw [fupdate_sum h, BitVec.toNat_add, BitVec.toNat_sub, BitVec.toNat_setWidth, BitVec.toNat_setWidth]; rfl
  omega

/-- Settles O14: the slot taken out is one term of the sum of the slots, and the store replaces that term. -/
theorem fupdateKeepsTheSumInvariant : Obligations.FupdateKeepsTheSumInvariant := by
  refine ⟨rfl, fun v s t hwf hsum h => ?_⟩
  have hcur := cursor_lt s.cur
  have hold : (Memory.read s.buf s.cur.toNat).toNat ≤ Memory.total s.buf 16 := Memory.read_le_total hcur
  have hle : Memory.total s.buf 16 ≤ 255 * 16 := Memory.total_le
  have hle' : Memory.total t.buf 16 ≤ 255 * 16 := Memory.total_le
  have hnew := fupdate_sum_toNat h (by omega) (by omega)
  have htotal : Memory.total t.buf 16 + (Memory.read s.buf s.cur.toNat).toNat = Memory.total s.buf 16 + v.toNat := by
    rw [fupdate_buf h]; exact Memory.total_write hwf hcur
  exact ⟨by omega, hnew, by omega, by omega⟩

/-! ## A run of FUPDATEs -/

/-- What each FUPDATE carries from the samples so far, the newest first, to those and its own, a whole run carries. -/
theorem feed_keeps {P : List Sample → State → Prop}
    (hstep : ∀ {v past s t}, P past s → exec (.fupdate v) s = .next t → P (v :: past) t) :
    ∀ (vs : List Sample) {past : List Sample} {s : State}, P past s →
      ∃ t, feed vs s = .next t ∧ P (vs.reverse ++ past) t
  | [], _, s, h => ⟨s, rfl, h⟩
  | v :: vs, past, s, h => by
    obtain ⟨t, hfeed, ht⟩ := feed_keeps hstep vs (hstep h (rfl : exec (.fupdate v) s = .next _))
    exact ⟨t, hfeed, by rwa [List.reverse_cons, List.append_assoc]⟩

/-- The ring buffer holds the last sixteen of the samples `past`, the newest first: the k-th stands k + 1 slots before the
cursor, and a slot no sample has reached reads 0 (R137). -/
structure HoldsWindow (past : List Sample) (s : State) : Prop where
  wf : Memory.wf s.buf = true
  slot : ∀ k < 16, Memory.read s.buf ((s.cur.toNat + 15 - k) % 16) = past[k]?.getD 0

theorem holdsWindow_nil {s : State} (h : s.buf = []) : HoldsWindow [] s := by
  constructor
  · rw [h]; rfl
  · intro k _; rw [h]; rfl

/-- The slot under the cursor holds the sixteenth newest sample. -/
theorem HoldsWindow.oldest {past : List Sample} {s : State} (h : HoldsWindow past s) :
    Memory.read s.buf s.cur.toNat = past[15]?.getD 0 := by
  have hcur := cursor_lt s.cur
  rw [← h.slot 15 (by omega), Nat.add_sub_cancel, Nat.mod_eq_of_lt hcur]

/-- FUPDATE puts the new sample where the oldest stood, and with the cursor's move each other one is a slot further back. -/
theorem HoldsWindow.fupdate {v : Sample} {past : List Sample} {s t : State} (hs : HoldsWindow past s)
    (h : exec (.fupdate v) s = .next t) : HoldsWindow (v :: past) t := by
  have hcur := cursor_lt s.cur
  refine ⟨?_, fun k hk => ?_⟩
  · rw [fupdate_buf h]; exact Memory.wf_write hcur hs.wf
  · rw [fupdate_buf h, fupdate_cur h]
    cases k with
    | zero =>
      rw [show ((s.cur.toNat + 1) % 16 + 15 - 0) % 16 = s.cur.toNat by omega, Memory.read_write_same hs.wf]; rfl
    | succ k =>
      rw [show ((s.cur.toNat + 1) % 16 + 15 - (k + 1)) % 16 = (s.cur.toNat + 15 - k) % 16 by omega,
        Memory.read_write_other (by omega), hs.slot k (by omega), List.getElem?_cons_succ]

theorem feed_cur : ∀ (vs : List Sample) {s t : State}, feed vs s = .next t →
    t.cur.toNat = (s.cur.toNat + vs.length) % 16
  | [], s, _, h => by
    obtain rfl := Host.Outcome.next.inj h
    exact (Nat.mod_eq_of_lt (cursor_lt s.cur)).symm
  | v :: vs, s, t, h => by
    rw [feed_cur vs (h : feed vs _ = .next t), fupdate_cur (rfl : exec (.fupdate v) s = .next _), List.length_cons]
    omega

/-- Settles O16: each FUPDATE keeps the window and moves the cursor by one. -/
theorem ringBufferHoldsTheLastSixteenSamples : Obligations.RingBufferHoldsTheLastSixteenSamples := by
  intro vs s hbuf
  obtain ⟨t, hfeed, hwindow⟩ := feed_keeps HoldsWindow.fupdate vs (holdsWindow_nil hbuf)
  rw [List.append_nil] at hwindow
  exact ⟨t, hfeed, feed_cur vs hfeed, hwindow.slot⟩

/-! ## The average of a window -/

/-- The sum of the last sixteen of the samples `past`, the newest first. -/
def windowSum (past : List Sample) : Nat := ((past.take 16).map BitVec.toNat).sum

/-- The sixteenth newest sample is one term of the sum, beside the fifteen newest. -/
theorem windowSum_eq_add_oldest (past : List Sample) :
    windowSum past = ((past.take 15).map BitVec.toNat).sum + (past[15]?.getD 0).toNat := by
  have hlast : (past[15]?.toList.map BitVec.toNat).sum = (past[15]?.getD 0).toNat := by
    cases past[15]? with
    | none => rfl
    | some old => exact Nat.add_zero _
  rw [windowSum, List.take_add_one, List.map_append, List.sum_append, hlast]

/-- A new sample has the fifteen newest before it in its window. -/
theorem windowSum_cons (v : Sample) (past : List Sample) :
    windowSum (v :: past) = v.toNat + ((past.take 15).map BitVec.toNat).sum := by
  rw [windowSum, List.take_succ_cons, List.map_cons, List.sum_cons]

theorem windowSum_le (past : List Sample) : windowSum past ≤ 4080 := by
  have hterm : ∀ n ∈ (past.take 16).map BitVec.toNat, n ≤ 255 := by
    intro n hn
    obtain ⟨v, -, rfl⟩ := List.mem_map.1 hn
    exact Nat.le_of_lt_succ (sample_lt v)
  have hsum := List.sum_le_card_nsmul _ 255 hterm
  rw [List.length_map, List.length_take, smul_eq_mul] at hsum
  unfold windowSum
  omega

theorem windowSum_replicate (v : Sample) (n : Nat) : windowSum (List.replicate n v) = v.toNat * min n 16 := by
  rw [windowSum, List.take_replicate, List.map_replicate, List.sum_replicate, smul_eq_mul, Nat.mul_comm, Nat.min_comm]

/-- The filter after the samples `past`, the newest first: the window, its sum in SUM, and in the local `avg`, once there was a
sample, that sum divided by 16 (R135). -/
structure AveragesWindow (past : List Sample) (s : State) : Prop where
  window : HoldsWindow past s
  sum : s.sum.toNat = windowSum past
  avg : past ≠ [] → s.loc.avg = averageOf s.sum

theorem averagesWindow_nil {s : State} (hbuf : s.buf = []) (hsum : s.sum = 0) : AveragesWindow [] s :=
  ⟨holdsWindow_nil hbuf, by rw [hsum]; rfl, nofun⟩

theorem AveragesWindow.fupdate {v : Sample} {past : List Sample} {s t : State} (hs : AveragesWindow past s)
    (h : exec (.fupdate v) s = .next t) : AveragesWindow (v :: past) t := by
  refine ⟨hs.window.fupdate h, ?_, fun _ => fupdate_avg h⟩
  have hsplit := windowSum_eq_add_oldest past
  have hsum := hs.sum
  have hnew := fupdate_sum_toNat h (hsum ▸ windowSum_le past) (by rw [hs.window.oldest]; omega)
  rw [hs.window.oldest] at hnew
  rw [windowSum_cons]
  omega

/-- In a SUM of at most 4080 the average is not truncated (R135; log 19). -/
theorem averageOf_toNat {sum : RunningSum} (h : sum.toNat ≤ 4080) : (averageOf sum).toNat = sum.toNat / 16 :=
  Nat.mod_eq_of_lt (show sum.toNat / 16 < 256 by omega)

/-- From an empty filter, the average after any samples is that of the last sixteen (R135). -/
theorem feed_average {vs : List Sample} (hvs : vs ≠ []) {s : State} (hbuf : s.buf = []) (hsum : s.sum = 0) :
    ∃ t, feed vs s = .next t ∧ t.loc.avg.toNat = t.sum.toNat / 16 ∧ t.sum.toNat = windowSum vs.reverse := by
  obtain ⟨t, hfeed, ht⟩ := feed_keeps AveragesWindow.fupdate vs (averagesWindow_nil hbuf hsum)
  rw [List.append_nil] at ht
  have hle : t.sum.toNat ≤ 4080 := ht.sum ▸ windowSum_le vs.reverse
  exact ⟨t, hfeed, by rw [ht.avg (by simpa using hvs), averageOf_toNat hle], ht.sum⟩

/-- Settles O15: SUM is the sum of the window, which has at most sixteen samples. -/
theorem averageIsOfTheLastSixteenSamples : Obligations.AverageIsOfTheLastSixteenSamples := by
  intro vs v s hbuf hsum
  obtain ⟨t, hfeed, havg, hwindow⟩ := feed_average (List.append_ne_nil_of_right_ne_nil vs (List.cons_ne_nil v [])) hbuf hsum
  exact ⟨t, hfeed, havg, hwindow ▸ windowSum_le _, by rw [havg, hwindow]; rfl⟩

/-- Settles O17: the window of a constant input has `min (j + 1) 16` samples of that value. -/
theorem startUpAveragesArePulledTowardZero : Obligations.StartUpAveragesArePulledTowardZero := by
  intro v j s hbuf hsum
  obtain ⟨t, hfeed, havg, hwindow⟩ := feed_average (List.cons_ne_nil v (List.replicate j v)) hbuf hsum
  refine ⟨t, hfeed, ?_⟩
  rw [havg, hwindow, ← List.replicate_succ, List.reverse_replicate, windowSum_replicate]

end Sys2Proof.Machine

/-! # DISPATCH's selection, and MODE after any number of notifications -/

namespace Sys2Proof.Machine

/-! ## The step of an idle machine at DISPATCH -/

/-- At DISPATCH with the handler idle, a step takes the EDGE that is due, or performs the operation that MODE selects (R140, R213). -/
theorem step_atDispatch {s : State} (hseq : s.seq = .atDispatch) (hidle : s.hseq = .idle) :
    step s = if s.edgeDue then exec .advance s.popEdge else exec (selected s) (dispatched s) := by
  simp [step, hseq, hact_eq_false_iff.2 hidle]

theorem edgeDue_iff {s : State} : s.edgeDue = true ↔ s.env.edges.head? = some 0 := by
  unfold State.edgeDue
  split
  next h => simp [h]
  next h => simp [h]

/-- With no EDGE due, the step is the operation MODE selects, behind DISPATCH's own move (R140, R141; log 21). -/
theorem step_of_no_edge_due {s : State} (hseq : s.seq = .atDispatch) (hidle : s.hseq = .idle)
    (hedge : s.env.edges.head? ≠ some 0) : step s = exec (selected s) (dispatched s) := by
  rw [step_atDispatch hseq hidle, if_neg (mt edgeDue_iff.1 hedge)]

/-- Settles O7: no EDGE is due, so the step performs what DISPATCH has read. -/
theorem stepPerformsTheDispatchedOperation : Obligations.StepPerformsTheDispatchedOperation := by
  intro s i hseq hidle hedge hdec
  have hsel : selected s = i := (Prod.mk.inj (Except.ok.inj hdec)).1
  rw [step_of_no_edge_due hseq hidle hedge, hsel]
  rfl

/-- Settles O10: the placed word is what DISPATCH reads, and the schedule beside it is empty, so DISPATCH's own move leaves the
state as it is. -/
theorem placedSelectorIsPerformedNext : Obligations.PlacedSelectorIsPerformedNext := by
  intro s w i hdec
  have hsel : selected (s.withFetchWord 8 w) = i := Option.some.inj ((decodeTableWord_eight w).symm.trans hdec)
  have hmove : dispatched (s.withFetchWord 8 w) = s.withFetchWord 8 w := rfl
  have hedge : (s.withFetchWord 8 w).env.edges.head? ≠ some 0 := nofun
  rw [step_of_no_edge_due rfl rfl hedge, hsel, hmove]

/-! ## The operations of the cycle -/

/-- The thirteen operations of the cycle, modes 0 to 12 (R97, R145). -/
def cycleOperations : List Instr :=
  [.off, .vu, .knight, .inverse, .center, .pingpong, .raindrop, .spectrum, .waveform, .heartbeat, .fireworks, .strobe, .sparkle]

/-- A MODE in the cycle selects an operation of the cycle, by going through the 256 values. -/
theorem decodeMode_mem_cycleOperations : ∀ {m : ModeIndex}, m.toNat < params.totalModes → decodeMode m ∈ cycleOperations := by
  decide

/-- Settles O57: MODE stays in the cycle, and neither FLASH nor a DEFAULT row is an operation of the cycle. -/
theorem flashAndDefaultAreNeverSelected : Obligations.FlashAndDefaultAreNeverSelected := by
  intro s hs
  have hne {i : Instr} (hi : i ∉ cycleOperations) : selected s ≠ i :=
    ne_of_mem_of_not_mem (decodeMode_mem_cycleOperations hs.mode) hi
  refine ⟨hne (by decide), fun m => ⟨?_, ?_, ?_, ?_, ?_⟩⟩ <;> exact hne (by simp [cycleOperations])

/-! ## A notification with its bounce -/

theorem nextMode_toNat (m : ModeIndex) : (nextMode m).toNat = (m.toNat + 1) % 13 := by
  have hv : (nextMode m).toNat = (m.toNat + 1) % 13 % 256 := BitVec.toNat_ofNat _ _
  omega

/-- A handler run makes the transition exactly when both levels it finds are 0 (R216). -/
theorem handlerRun_mode (s : State) :
    (handlerRun s).mode = if s.nextLevel = 0 ∧ s.takeLevel.nextLevel = 0 then nextMode s.mode else s.mode := by
  rcases BitVec.eq_zero_or_eq_one s.nextLevel with h1 | h1
  · rcases BitVec.eq_zero_or_eq_one s.takeLevel.nextLevel with h2 | h2 <;>
      simp [handlerRun, h1, h2, sampleLevel_mode, State.handlerEvent]
  · simp [handlerRun, h1, sampleLevel_mode]

/-- The levels a notification puts in store (R100). -/
def Notification.levels (n : Notification) : List Bit := if n.first = 0 then [0, n.second] else [1]

/-- The state in which the handler run of a notification starts, its EDGE taken off the schedule: its levels in front of those in
store, its bounce on the schedule. -/
def Notification.arrive (n : Notification) (s : State) : State :=
  { s with env := { s.env with btn := n.levels ++ s.env.btn, edges := n.bounce } }

/-- A notification is a script step with its EDGE due and its bounce behind it. -/
theorem performNotification_eq (n : Notification) {s : State} (he : s.env.edges = []) :
    performNotification n s = scriptStep ((n.arrive s).withEdges (0 :: n.bounce)) := by
  rcases BitVec.eq_zero_or_eq_one n.first with h | h <;>
    simp [performNotification, Notification.line, performLine, State.edgeWith, State.withEdges, Notification.arrive,
      Notification.levels, h, he]

theorem arrive_nextLevel_eq_zero_iff (n : Notification) (s : State) : (n.arrive s).nextLevel = 0 ↔ n.first = 0 := by
  rcases BitVec.eq_zero_or_eq_one n.first with h | h <;> simp [State.nextLevel, Notification.arrive, Notification.levels, h]

/-- The run of a notification finds both levels 0 exactly when the notification is a confirmed edge (R216). -/
theorem arrive_confirmed_iff (n : Notification) (s : State) :
    (n.arrive s).nextLevel = 0 ∧ (n.arrive s).takeLevel.nextLevel = 0 ↔ n.confirmed = true := by
  rw [arrive_nextLevel_eq_zero_iff]
  rcases BitVec.eq_zero_or_eq_one n.first with h | h <;>
    simp [State.nextLevel, State.takeLevel, Notification.arrive, Notification.levels, Notification.confirmed, h]

/-- The invariant does not speak of what is in store. -/
theorem BetweenOperations.arrive {s : State} (h : BetweenOperations s) (n : Notification) : BetweenOperations (n.arrive s) :=
  { mode := h.mode, buf := h.buf, sum := h.sum, band := h.band, clk := h.clk,
    seq := h.seq, hseq := h.hseq, todo := h.todo, loc := h.loc }

/-- A due EDGE whose bounce arrives inside its handler run: the step is that run, and nothing is left on the schedule (R219). -/
theorem step_edge_with_bounce {s : State} (hseq : s.seq = .atDispatch) (hidle : s.hseq = .idle)
    (hb : s.env.edges.sum ≤ if s.nextLevel = 0 then 2 else 0) :
    step (s.withEdges (0 :: s.env.edges)) = .next { (handlerRun s).withEdges [] with hseq := .idle } := by
  have hstart : takeEdge s = { s with hseq := .firstCheck } := by simp [takeEdge, hact_eq_false_iff.2 hidle]
  calc step (s.withEdges (0 :: s.env.edges))
      = exec .advance s := step_atDispatch hseq hidle
    _ = .next (if s.hact then s else handlerToEnd (takeEdge s)) := rfl
    _ = .next (handlerToEnd { s with hseq := .firstCheck }) := by rw [hact_eq_false_iff.2 hidle, hstart]; rfl
    _ = .next { (handlerRun s).withEdges [] with hseq := .idle } := by rw [handlerToEnd_bounce s hb]

/-- A handler run asks for no draw, so a script step that is one is the machine's (R100, R217). -/
theorem scriptStep_handlerRun {s t u : State} (h : step u = .next t) (hu : u.log = s.log) (ht : t.log = (handlerRun s).log) :
    scriptStep u = .next t := by
  obtain ⟨es, hes, hall⟩ := handlerRun_log s
  refine scriptStep_noDraw h ?_
  rw [newEvents_of_log (es := es) (by rw [ht, hes, hu])]
  exact drawsAsked_handler fun e he => (hall e (List.mem_reverse.1 he)).2

/-- One notification from an idle machine: the invariant holds again, no EDGE is left over, and MODE has moved exactly if it was a
confirmed edge (R143, R219). -/
theorem performNotification_next {n : Notification} {s : State} (hs : BetweenOperations s) (he : s.env.edges = [])
    (hw : n.inWindow = true) :
    ∃ t, performNotification n s = .next t ∧ BetweenOperations t ∧ t.env.edges = [] ∧
      t.mode = if n.confirmed then nextMode s.mode else s.mode := by
  have ha := hs.arrive n
  have hb : n.bounce.sum ≤ if (n.arrive s).nextLevel = 0 then 2 else 0 := by
    simpa only [Notification.inWindow, decide_eq_true_eq, arrive_nextLevel_eq_zero_iff] using hw
  have hstep := step_edge_with_bounce ha.seq ha.hseq hb
  refine ⟨_, ?_, everyStepKeepsTheInvariant _ _ (ha.withEdges _) hstep, rfl, ?_⟩
  · rw [performNotification_eq n he]
    exact scriptStep_handlerRun (s := n.arrive s) hstep rfl rfl
  · have hm : (handlerRun (n.arrive s)).mode = if n.confirmed then nextMode s.mode else s.mode := by
      simp only [handlerRun_mode, arrive_confirmed_iff]; rfl
    exact hm

/-- Settles O42, by induction on the notifications, each of which leads from an idle machine to an idle machine. -/
theorem modeCountsConfirmedEdges : Obligations.ModeCountsConfirmedEdges := by
  intro ns
  induction ns with
  | nil =>
    intro s hs he _
    have hlt : s.mode.toNat < 13 := hs.mode
    exact ⟨s, rfl, hs, he, (Nat.mod_eq_of_lt hlt).symm⟩
  | cons n ns ih =>
    intro s hs he hw
    obtain ⟨hn, hns⟩ := List.forall_mem_cons.1 hw
    obtain ⟨u, hu, hbu, heu, hmu⟩ := performNotification_next hs he hn
    obtain ⟨t, ht, hbt, het, hmt⟩ := ih u hbu heu hns
    refine ⟨t, by rw [performNotifications, hu]; exact ht, hbt, het, ?_⟩
    rw [hmt, hmu]
    by_cases hc : n.confirmed = true
    · rw [if_pos hc, nextMode_toNat, List.filter_cons_of_pos hc, List.length_cons]
      omega
    · rw [if_neg hc, List.filter_cons_of_neg hc]

end Sys2Proof.Machine

/-! # The generators driven by nothing or by volume: OFF, VU, INVERSE, CENTER, DEFAULT, SPECTRUM, WAVEFORM -/

namespace Sys2Proof.Machine

/-! ## The patterns as the rules write them -/

/-- Over eight bits, the full mask less a pattern is the pattern's complement (R164). -/
theorem inversePattern_eq_not (avg : Sample) : inversePattern avg = ~~~defaultPattern avg := by
  have hsub : fullMask - (defaultPattern avg).toNat = (~~~defaultPattern avg).toNat := BitVec.toNat_not.symm
  rw [inversePattern, trunc, hsub, BitVec.ofNat_toNat, BitVec.setWidth_eq]

theorem oneHot_getLsbD (i : Nat) {k : Nat} (hk : k < 8) : (oneHot i).getLsbD k = decide (i = k) := by
  rw [oneHot, trunc, Nat.one_shiftLeft, BitVec.getLsbD_ofNat, Nat.testBit_two_pow, decide_eq_true hk, Bool.true_and]

/-- Each pair of CENTER lights one LED more on either side of the middle (R166). -/
theorem centerPairs_getLsbD {k : Nat} (hk : k < 8) : ∀ {n : Nat}, n ≤ 4 →
    (centerPairs n).getLsbD k = decide (4 - n ≤ k ∧ k < 4 + n)
  | 0, _ => by
    have hempty : ¬(4 - 0 ≤ k ∧ k < 4 + 0) := by omega
    rw [centerPairs, decide_eq_false hempty]
    exact BitVec.getLsbD_zero
  | n + 1, hn => by
    rw [centerPairs, BitVec.getLsbD_or, BitVec.getLsbD_or, centerPairs_getLsbD hk (by omega), oneHot_getLsbD _ hk,
      oneHot_getLsbD _ hk, ← Bool.decide_or, ← Bool.decide_or, decide_eq_decide]
    omega

theorem pairCount_eq (avg : Sample) : pairCount avg = avg.toNat / 16 + 1 := by
  rw [pairCount, Nat.shiftRight_eq_div_pow]; rfl

theorem centerPattern_getLsbD (avg : Sample) {k : Nat} (hk : k < 8) :
    (centerPattern avg).getLsbD k =
      decide (4 - min (avg.toNat / 16 + 1) 4 ≤ k ∧ k < 4 + min (avg.toNat / 16 + 1) 4) := by
  rw [centerPattern, pairCount_eq, centerPairs_getLsbD hk (Nat.min_le_right ..)]

theorem lowMask_eq (n : Nat) : lowMask n = BitVec.ofNat 8 (2 ^ n - 1) := by
  rw [lowMask, Nat.one_shiftLeft]; rfl

theorem spectrumLevel_eq (v : Sample) : spectrumLevel v = v.toNat / 32 + 1 := by
  rw [spectrumLevel, Nat.shiftRight_eq_div_pow]; rfl

/-- Of the two truncated differences one is zero (R11). -/
theorem absDiff_eq (a b : Nat) : absDiff a b = a - b + (b - a) := by
  unfold absDiff
  split <;> omega

theorem absDiff_sample_div_lt (v last : Sample) : absDiff v.toNat last.toNat / 32 < 8 := by
  have hv := sample_lt v
  have hlast := sample_lt last
  rw [absDiff_eq]
  omega

/-- WAVEFORM's bound of 8 never binds (R172). -/
theorem waveformCount_eq (v last : Sample) : waveformCount v last = absDiff v.toNat last.toNat / 32 :=
  Nat.min_eq_right (absDiff_sample_div_lt v last).le

/-! ## OFF -/

/-- Settles O18: OFF's moves are one frame of the empty pattern. -/
theorem offRendersAllDark : Obligations.OffRendersAllDark := by
  intro s
  refine ⟨_, rfl, ?_⟩
  rw [offMoves, perform_finish, doMoves_append, doMoves_postRenderMoves, atRest_showMoves, atRest_enter,
    atRest_afterRender]
  rfl

/-! ## The operations on the average -/

/-- What an operation of the default branch leaves of the main flow's part, its frame being read off the SUM it leaves (R161). -/
theorem mainView_composite {k : PatternRule} {f : Sample → Pattern} (hk : ∀ u, patternOf k u = f u.loc.avg)
    (op : ModeOp) (s : State) :
    mainView (perform op (compositeMoves k) s) =
      atRest (afterRender (f (averageOf (perform op (compositeMoves k) s).sum))
        (afterFilter (s.nextRaw.extractLsb' 2 8) (afterConvert (mainView s)))) := by
  have hview := perform_composite op k f hk s
  have hsum : (perform op (compositeMoves k) s).sum =
      (afterFilter (sampleOf s.nextRaw) (afterConvert (atRest (mainView s)))).sum := (congrArg State.sum hview :)
  rw [hsum, hview, sampleOf_eq_extractLsb', atRest_afterRender, atRest_afterFilter, atRest_afterConvert]

/-- Settles O19: VU is the default branch with the left-shifted mask. -/
theorem vuRendersTheLeftShiftedMask : Obligations.VuRendersTheLeftShiftedMask :=
  fun s => ⟨_, rfl, mainView_composite (f := vuPattern) (fun _ => rfl) .vu s⟩

/-- Settles O20: INVERSE is the default branch with the complement of DEFAULT's mask. -/
theorem inverseRendersTheComplementedMask : Obligations.InverseRendersTheComplementedMask :=
  fun s => ⟨_, rfl, mainView_composite (k := .inverse) (f := fun avg => ~~~defaultPattern avg)
    (fun u => inversePattern_eq_not u.loc.avg)
    .inverse s⟩

/-- Settles O21: CENTER is the default branch with the pairs around the middle. -/
theorem centerRendersSymmetricPairs : Obligations.CenterRendersSymmetricPairs :=
  fun s => ⟨_, _, rfl, fun _ hk => centerPattern_getLsbD _ hk, mainView_composite (f := centerPattern) (fun _ => rfl) .center s⟩

/-- Every row of DEFAULT performs the one operation, whatever the selector (R168). -/
theorem exec_default {i : Instr} {m : ModeIndex} (s : State)
    (hi : i = .default14 m ∨ i = .default16 m ∨ i = .default32 m ∨ i = .default64 m ∨ i = .default128 m) :
    exec i s = .next (defaultOperation s) := by
  rcases hi with rfl | rfl | rfl | rfl | rfl <;> rfl

/-- Settles O22: DEFAULT is the default branch with the right-shifted mask. -/
theorem defaultRendersTheRightShiftedMask : Obligations.DefaultRendersTheRightShiftedMask :=
  fun _ _ s hi => ⟨_, exec_default s hi, mainView_composite (f := defaultPattern) (fun _ => rfl) .deflt s⟩

/-! ## The operations on the sample -/

/-- A sample and a frame of it: one conversion, and the frame of the pattern at the sample (R170, R172). -/
theorem atRest_sampleMoves_showMoves {k : PatternRule} {f : Sample → Sample → Pattern}
    (hk : ∀ u, patternOf k u = f u.loc.s u.wfLast) (s : State) :
    atRest (doMoves (sampleMoves ++ showMoves k) s) =
      afterRender (f (sampleOf s.nextRaw) s.wfLast) (afterConvert (atRest s)) := by
  have hlast : (doMoves sampleMoves s).wfLast = s.wfLast := by
    rw [doMoves_sampleMoves]; exact takeRaw_wfLast s
  rw [doMoves_append, atRest_showMoves, hk, sampleMoves_loc, hlast, atRest_sampleMoves]

/-- Settles O23: SPECTRUM's frame is the low mask at the level of its sample. -/
theorem spectrumRendersTheLevelMask : Obligations.SpectrumRendersTheLevelMask := by
  intro s
  refine ⟨_, rfl, ?_⟩
  rw [spectrumMoves, perform_finish, doMoves_append, doMoves_postRenderMoves,
    atRest_sampleMoves_showMoves (f := fun v _ => lowMask (spectrumLevel v)) (fun _ => rfl), spectrumLevel_eq, lowMask_eq,
    atRest_afterRender, atRest_afterConvert]
  rfl

/-- WAVEFORM's end: the sample is kept, and the wait follows (R172). -/
theorem atRest_wfStore_delay (ms : Nat) (s : State) :
    atRest (doMoves [.wfStore, .delay ms] s) = { afterDelay ms (atRest s) with wfLast := s.loc.s } := rfl

/-- A frame writes the local `p` alone, so WAVEFORM still has its sample to keep. -/
theorem sampleMoves_showMoves_loc_s (k : PatternRule) (s : State) :
    (doMoves (sampleMoves ++ showMoves k) s).loc.s = sampleOf s.nextRaw := by
  rw [doMoves_append, doMoves_showMoves, sampleMoves_loc]

/-- Settles O24: WAVEFORM's frame is the low mask at the change since WF_LAST, which its end overwrites. -/
theorem waveformRendersTheChangeOfVolume : Obligations.WaveformRendersTheChangeOfVolume := by
  intro s
  have hmoves : waveformMoves = (sampleMoves ++ showMoves .waveform ++ [.wfStore, .delay 50]) ++ [.finish] := rfl
  have hlt := absDiff_sample_div_lt (s.nextRaw.extractLsb' 2 8) s.wfLast
  refine ⟨_, _, rfl, rfl, absDiff_eq .. ▸ hlt, ?_⟩
  rw [hmoves, perform_finish, doMoves_append, atRest_wfStore_delay, sampleMoves_showMoves_loc_s,
    atRest_sampleMoves_showMoves (f := fun v last => lowMask (waveformCount v last)) (fun _ => rfl), waveformCount_eq,
    absDiff_eq, lowMask_eq, atRest_enter, ← atRest_afterConvert]
  rfl

end Sys2Proof.Machine

/-! # The generators driven by phase or by time: KNIGHT, PINGPONG, STROBE -/

namespace Sys2Proof.Machine

/-! ## One frame, and what follows it -/

/-- An operation that shows a frame and goes on to `rest`: on the main flow's part, what `rest` makes of the state after the frame
and its wait (R180, R183, R186). -/
theorem mainView_frame_then {rest : List Move} {f : State → State} (hrest : ∀ u, atRest (doMoves rest u) = f (atRest u))
    (op : ModeOp) (k : PatternRule) (ms : Nat) (s : State) :
    mainView (perform op (frameMoves k ms ++ rest ++ [.finish]) s) =
      f (afterDelay ms (afterRender (patternOf k (atRest (mainView s))) (atRest (mainView s)))) := by
  rw [perform_finish, doMoves_append, hrest, atRest_frameMoves, atRest_enter]
  rfl

/-- Settles O30: STROBE is one frame, and a second one is what follows it. -/
theorem strobeBlinksOnce : Obligations.StrobeBlinksOnce :=
  fun s => ⟨_, rfl, mainView_frame_then (f := fun u => afterDelay 50 (afterRender 0x00 u))
    (atRest_frameMoves (.const 0x00) 50) .strobe (.const 0xFF) 50 s⟩

/-! ## KNIGHT -/

/-- KNIGHT's phase: where the dot stands, and which way it goes (R28). -/
def State.krPhase (s : State) : BitVec 3 × KrDir := (s.krPos, s.krDir)

/-- KNIGHT's flip and move on its phase: the dot moves in the direction after the flip tests (R180). -/
def krStep (phase : BitVec 3 × KrDir) : BitVec 3 × KrDir :=
  (krMoved phase.1 (krFlipped phase.1 phase.2), krFlipped phase.1 phase.2)

/-- What KNIGHT does behind its frame, on a state. -/
def stepKnight (s : State) : State := { s with krPos := (krStep s.krPhase).1, krDir := (krStep s.krPhase).2 }

theorem atRest_krMoves (s : State) : atRest (doMoves [.krFlip, .krMove] s) = stepKnight (atRest s) := rfl

/-- KNIGHT on the main flow's part: the dot's frame, 100 ms, and the step of its phase (R180). -/
theorem mainView_knight {s t : State} (h : exec .knight s = .next t) :
    mainView t = stepKnight (afterDelay 100 (afterRender (knightPattern s.krPos) (atRest (mainView s)))) := by
  obtain rfl := Host.Outcome.next.inj h
  exact mainView_frame_then atRest_krMoves .knight .knight 100 s

theorem knight_krPhase {s t : State} (h : exec .knight s = .next t) : t.krPhase = krStep s.krPhase :=
  (congrArg State.krPhase (mainView_knight h) :)

theorem exec_knight_next (s : State) : ∃ t, exec .knight s = .next t ∧ t.krPhase = krStep s.krPhase :=
  ⟨_, rfl, knight_krPhase rfl⟩

/-- No position passes both flip tests, so their order does not matter (R181). -/
theorem krFlipped_eq (pos : BitVec 3) (d : KrDir) :
    krFlipped pos d = if pos.toNat = 7 then .down else if pos.toNat = 0 then .up else d := by
  revert pos
  cases d <;> decide

/-- The flip tests come before the move, so the dot turns at 0 and at 7 and the move does not wrap (R182). -/
theorem krMoved_krFlipped_toNat (pos : BitVec 3) (d : KrDir) :
    (krMoved pos (krFlipped pos d)).toNat = (if pos.toNat = 7 then 6 else if pos.toNat = 0 then 1
      else match d with | .up => pos.toNat + 1 | .down => pos.toNat - 1) := by
  revert pos
  cases d <;> decide

theorem oneHot_eq (i : Nat) : oneHot i = BitVec.ofNat 8 (2 ^ i) := by
  rw [oneHot, Nat.one_shiftLeft]; rfl

/-- Settles O25: the frame is that of the old position, and the new phase is the old one's step. -/
theorem knightShowsThenMoves : Obligations.KnightShowsThenMoves := by
  intro s
  obtain ⟨t, h, hphase⟩ := exec_knight_next s
  have hpos : t.krPos = krMoved s.krPos (krFlipped s.krPos s.krDir) := congrArg Prod.fst hphase
  have hdir : t.krDir = krFlipped s.krPos s.krDir := congrArg Prod.snd hphase
  refine ⟨t, h, ?_, ?_⟩
  · rw [hpos]; exact krMoved_krFlipped_toNat s.krPos s.krDir
  · rw [mainView_knight h, knightPattern, oneHot_eq, hpos, hdir]; rfl

/-- Settles O26: the new direction is the old one after the flip tests. -/
theorem knightDirectionFlipsAtTheEndsOnly : Obligations.KnightDirectionFlipsAtTheEndsOnly := by
  intro s
  obtain ⟨t, h, hphase⟩ := exec_knight_next s
  have hdir : t.krDir = krFlipped s.krPos s.krDir := congrArg Prod.snd hphase
  exact ⟨t, h, hdir.trans (krFlipped_eq s.krPos s.krDir)⟩

/-- An operation that always answers a next state and steps a part of the state by `f` steps it, done `n` times, by `f` `n`
times. -/
theorem execTimes_iterate {α : Type} {i : Instr} {part : State → α} {f : α → α}
    (hstep : ∀ s, ∃ t, exec i s = .next t ∧ part t = f (part s)) :
    ∀ (n : Nat) (s : State), ∃ u, execTimes i n s = .next u ∧ part u = f^[n] (part s)
  | 0, s => ⟨s, rfl, rfl⟩
  | n + 1, s => by
    obtain ⟨t, ht, hpart⟩ := hstep s
    obtain ⟨u, hu, hiter⟩ := execTimes_iterate hstep n t
    exact ⟨u, by rw [execTimes, ht]; exact hu, by rw [hiter, hpart, Function.iterate_succ_apply]⟩

/-- A phase KNIGHT has stepped to lies on the cycle of 14: at an end the dot already goes outward, elsewhere either way (R182). -/
theorem krStep_iterate_fourteen (phase : BitVec 3 × KrDir) : krStep^[14] (krStep phase) = krStep phase := by
  obtain ⟨pos, d⟩ := phase
  revert pos
  cases d <;> decide

/-- Settles O27: the phase after an invocation is a step of the phase before, and lies on the cycle of 14. -/
theorem knightSweepHasPeriodFourteen : Obligations.KnightSweepHasPeriodFourteen := by
  intro s t h
  obtain ⟨u, hu, hiter⟩ := execTimes_iterate exec_knight_next 14 t
  have hphase : u.krPhase = t.krPhase := by rw [hiter, knight_krPhase h, krStep_iterate_fourteen]
  exact ⟨u, hu, congrArg Prod.fst hphase, congrArg Prod.snd hphase⟩

/-! ## PINGPONG -/

theorem legalBand_iff {w : BitVec 3} : legalBand w = true ↔ 1 ≤ w.toNat ∧ w.toNat ≤ 4 := by
  rw [legalBand, Bool.and_eq_true, decide_eq_true_iff, decide_eq_true_iff]

theorem exec_pingpong_refused_iff {s : State} :
    exec .pingpong s = .refused .illegalBandWidth ↔ ¬legalBand s.ppW = true := by
  show execPingpong s = _ ↔ _
  unfold execPingpong
  split
  next hw => simp [hw]
  next hw => simp [hw]

/-- Settles O29: the refusal is PINGPONG's guard, whose range is 1 to 4. -/
theorem pingpongIsRefusedAtIllegalWidthsOnly : Obligations.PingpongIsRefusedAtIllegalWidthsOnly := by
  intro s
  rw [exec_pingpong_refused_iff, legalBand_iff]
  omega

/-- What PINGPONG does behind its frame: the width moves in the direction after the flip tests (R183). -/
def stepPingpong (s : State) : State :=
  { s with ppW := ppMoved s.ppW (ppFlipped s.ppW s.ppDir), ppDir := ppFlipped s.ppW s.ppDir }

theorem atRest_ppMoves (s : State) : atRest (doMoves [.ppFlip, .ppMove] s) = stepPingpong (atRest s) := rfl

/-- PINGPONG on the main flow's part: the bands' frame, 100 ms, and the step of the width (R183). -/
theorem mainView_pingpong {s t : State} (h : exec .pingpong s = .next t) :
    mainView t = stepPingpong (afterDelay 100 (afterRender (bandPattern s.ppW) (atRest (mainView s)))) := by
  obtain ⟨-, rfl⟩ := exec_pingpong_next_iff.1 h
  exact mainView_frame_then atRest_ppMoves .pingpong .pingpong 100 s

theorem lowMask_getLsbD (n : Nat) {k : Nat} (hk : k < 8) : (lowMask n).getLsbD k = decide (k < n) := by
  rw [lowMask_eq, BitVec.getLsbD_ofNat, Nat.testBit_two_pow_sub_one, decide_eq_true hk, Bool.true_and]

/-- The full mask shifted left by `m` lights the LEDs from `m` on. -/
theorem fullMask_shiftLeft_getLsbD (m : Nat) {k : Nat} (hk : k < 8) :
    (BitVec.ofNat 8 (fullMask <<< m)).getLsbD k = decide (m ≤ k) := by
  have hin : k - m < 8 := by omega
  have hmask : fullMask = 2 ^ 8 - 1 := rfl
  rw [BitVec.getLsbD_ofNat, Nat.testBit_shiftLeft, hmask, Nat.testBit_two_pow_sub_one, decide_eq_true hk,
    decide_eq_true hin, Bool.true_and, Bool.and_true]

/-- The bands of width `w` are the `w` lowest and the `w` highest LEDs (R183). -/
theorem bandPattern_getLsbD (w : BitVec 3) {k : Nat} (hk : k < 8) :
    (bandPattern w).getLsbD k = decide (k < w.toNat ∨ 8 - w.toNat ≤ k) := by
  rw [bandPattern, BitVec.getLsbD_or, lowMask_getLsbD _ hk, Bool.decide_or]
  exact congrArg _ (fullMask_shiftLeft_getLsbD (8 - w.toNat) hk)

/-- No width passes both flip tests, so their order does not matter (R184). -/
theorem ppFlipped_eq (w : BitVec 3) (d : PpDir) :
    ppFlipped w d = if w.toNat = 4 then .shrink else if w.toNat = 1 then .grow else d := by
  revert w
  cases d <;> decide

/-- From a legal width a move does not wrap. -/
theorem ppMoved_toNat {w : BitVec 3} (hw : legalBand w = true) (d : PpDir) :
    (ppMoved w d).toNat = (match d with | .grow => w.toNat + 1 | .shrink => w.toNat - 1) := by
  revert w
  cases d <;> decide

/-- Settles O28: the frame is that of the old width, and width and direction are stepped behind it. -/
theorem pingpongShowsTwoBandsThenStepsTheWidth : Obligations.PingpongShowsTwoBandsThenStepsTheWidth := by
  intro s hmin hmax
  have hlegal : legalBand s.ppW = true := legalBand_iff.2 ⟨hmin, hmax⟩
  obtain ⟨t, h⟩ := exec_next_of_legalBand .pingpong hlegal
  have hview := mainView_pingpong h
  have hdir : t.ppDir = ppFlipped s.ppW s.ppDir := (congrArg State.ppDir hview :)
  have hwidth : t.ppW = ppMoved s.ppW t.ppDir := hdir ▸ (congrArg State.ppW hview :)
  obtain ⟨hlow, hhigh⟩ := legalBand_iff.1 (legalBand_ppMoved s.ppW s.ppDir hlegal)
  rw [← hdir, ← hwidth] at hlow hhigh
  refine ⟨t, bandPattern s.ppW, h, fun k hk => bandPattern_getLsbD s.ppW hk,
    hdir.trans (ppFlipped_eq s.ppW s.ppDir), ?_, hlow, hhigh, ?_⟩
  · rw [hwidth]; exact ppMoved_toNat hlegal t.ppDir
  · rw [hview, hwidth, hdir]; rfl

end Sys2Proof.Machine

/-! # The blocking sequence generators: HEARTBEAT, FIREWORKS -/

namespace Sys2Proof.Machine

/-! ## An animation: one frame after another, each with the same wait -/

/-- The frames `p f` for `f` along `fs`, each followed by `ms` milliseconds. -/
def afterFrames (ms : Nat) (p : Nat → Pattern) (fs : List Nat) (s : State) : State :=
  fs.foldl (fun u f => afterDelay ms (afterRender (p f) u)) s

theorem afterFrames_cons (ms : Nat) (p : Nat → Pattern) (f : Nat) (fs : List Nat) (s : State) :
    afterFrames ms p (f :: fs) s = afterFrames ms p fs (afterDelay ms (afterRender (p f) s)) := rfl

@[simp] theorem atRest_afterFrames (ms : Nat) (p : Nat → Pattern) (fs : List Nat) (s : State) :
    atRest (afterFrames ms p fs s) = afterFrames ms p fs (atRest s) :=
  (List.foldl_hom atRest fun _ _ => rfl).symm

/-- An animation whose pattern rules read nothing of the state plays their frames in order (R190, R194). -/
theorem atRest_animation {k : Nat → PatternRule} {p : Nat → Pattern} (hk : ∀ f u, patternOf (k f) u = p f) (ms : Nat) :
    ∀ (fs : List Nat) (s : State),
      atRest (doMoves (fs.flatMap fun f => frameMoves (k f) ms) s) = afterFrames ms p fs (atRest s)
  | [], _ => rfl
  | f :: fs, s => by
    rw [List.flatMap_cons, doMoves_append, atRest_animation hk ms fs, atRest_frameMoves, hk, afterFrames_cons]

/-! ## HEARTBEAT -/

/-- Settles O31: HEARTBEAT's moves are the animation of its table. -/
theorem heartbeatPlaysItsTableOnce : Obligations.HeartbeatPlaysItsTableOnce := by
  intro s
  refine ⟨_, rfl, ?_⟩
  rw [heartbeatMoves, perform_finish, atRest_animation (p := Config.hbTable) (fun _ _ => rfl), atRest_enter,
    ← atRest_afterFrames]
  rfl

/-! ## FIREWORKS -/

theorem atRest_launchMoves (s : State) :
    atRest (doMoves launchMoves s) = afterFrames 150 fwLaunch (List.range 4) (atRest s) :=
  atRest_animation (fun _ _ => rfl) 150 (List.range 4) s

/-- The fade starts at the full mask and loses one LED more with each frame (R194, D20). -/
theorem atRest_fadeMoves (s : State) :
    atRest (doMoves fadeMoves s) = afterFrames 150 (fun i => BitVec.ofNat 8 (0xFF >>> i)) (List.range 8) (atRest s) :=
  atRest_animation (fun _ _ => rfl) 150 (List.range 8) s

/-- FIREWORKS on the main flow's part: launch, explosion, fade and blank pause, one after the other (R194). -/
theorem mainView_fireworks (s : State) :
    mainView (perform .fireworks fireworksMoves s) =
      atRest (afterDelay 500 (afterRender 0x00
        (afterFrames 150 (fun i => BitVec.ofNat 8 (0xFF >>> i)) (List.range 8)
          (afterDelay 300 (afterRender 0xFF (afterFrames 150 fwLaunch (List.range 4) (mainView s))))))) := by
  rw [fireworksMoves, perform_finish, doMoves_append, doMoves_append, doMoves_append, atRest_frameMoves, atRest_fadeMoves,
    atRest_frameMoves, atRest_launchMoves, atRest_enter]
  simp only [patternOf, atRest_afterDelay, atRest_afterRender, atRest_afterFrames]

/-- Settles O32: FIREWORKS' four parts, the animations written as folds. -/
theorem fireworksPlaysItsSequence : Obligations.FireworksPlaysItsSequence :=
  fun s => ⟨_, rfl, mainView_fireworks s⟩

/-! ## The launch frames -/

/-- The LED that launch frame `f` lights (R195). -/
def launchLed (f : Nat) : Nat := f + launchOffset f

theorem fwLaunch_getLsbD (f : Nat) {k : Nat} (hk : k < 8) : (fwLaunch f).getLsbD k = decide (k = launchLed f) := by
  rw [fwLaunch, oneHot_getLsbD _ hk, decide_eq_decide]
  exact eq_comm

theorem launchLed_lt_succ (f : Nat) : launchLed f < launchLed (f + 1) := by
  have hoffset : launchOffset f ≤ launchOffset (f + 1) := Nat.le_max_left ..
  simp only [launchLed]
  omega

/-- No free constant lifts a launch frame by more than the four LEDs that the four frames leave over (log 7). -/
theorem launchOffset_le : ∀ f : Nat, launchOffset f ≤ 4
  | 0 => Fin.is_le (Config.fwRise 0)
  | f + 1 => Nat.max_le.2 ⟨launchOffset_le f, Fin.is_le (Config.fwRise (f + 1))⟩

theorem launchLed_lt {f : Nat} (hf : f < 4) : launchLed f < 8 := by
  have hoffset := launchOffset_le f
  rw [launchLed]
  omega

/-- Settles O33: the lit LED rises with the frame, since the offset never falls, and the offset's bound keeps it on the strip. -/
theorem launchFramesRiseOneLedAtATime : Obligations.LaunchFramesRiseOneLedAtATime :=
  ⟨launchLed, launchLed_lt_succ 0, launchLed_lt_succ 1, launchLed_lt_succ 2,
    fun f hf => ⟨launchLed_lt hf, fun _ hk => fwLaunch_getLsbD f hk⟩⟩

end Sys2Proof.Machine

/-! # The pseudo-random generators: RAINDROP, SPARKLE, FLASH -/

namespace Sys2Proof.Machine

/-! ## A draw of the random source -/

/-- What an index draw leaves in store depends on what was in store, not on the registers (R205). -/
theorem takeIndex_env_congr {s s' : State} (h : s.env = s'.env) : s.takeIndex.env = s'.takeIndex.env := by
  simp only [State.takeIndex, h]
  split <;> rfl

theorem mainView_takeIndex (s : State) : mainView s.takeIndex = (mainView s).takeIndex := by
  simp only [State.takeIndex, mainView]
  split <;> rfl

theorem nextCoin_of_supplied {s : State} {c : Bit} {rest : List Draw} (h : s.env.rnd = .coin c :: rest) :
    s.nextCoin = c := by
  rw [State.nextCoin, h]

theorem takeCoin_of_supplied {s : State} {c : Bit} {rest : List Draw} (h : s.env.rnd = .coin c :: rest) :
    s.takeCoin = { s with env := { s.env with rnd := rest } } := by
  rw [State.takeCoin, h]

theorem nextIndex_of_supplied {s : State} {b : BitIndex} {rest : List Draw} (h : s.env.rnd = .index b :: rest) :
    s.nextIndex = b := by
  rw [State.nextIndex, h]

theorem takeIndex_of_supplied {s : State} {b : BitIndex} {rest : List Draw} (h : s.env.rnd = .index b :: rest) :
    s.takeIndex = { s with env := { s.env with rnd := rest } } := by
  rw [State.takeIndex, h]

/-! ## RAINDROP -/

/-- A draw, and the frame of the drawn LED, on a state. -/
def afterDrop (s : State) : State :=
  afterRender (oneHot s.nextIndex.toNat) (afterEvents [.rnd 8 s.nextIndex.toNat] { s with env := s.takeIndex.env })

theorem atRest_dropMoves (s : State) : atRest (doMoves ([.drawIndex] ++ showMoves .drop) s) = afterDrop (atRest s) := by
  have hdrawn : (doMoves [.drawIndex] s).loc.r = s.nextIndex := by
    rw [doMoves_cons, doMoves_nil, doMove, drawIndex_eq]
  have hsource : s.takeIndex.env = (atRest s).takeIndex.env := takeIndex_env_congr rfl
  rw [doMoves_append, atRest_showMoves, patternOf, hdrawn, atRest_drawIndex, hsource, afterDrop, atRest_nextIndex]

/-- RAINDROP on the main flow's part: a dark frame, 100 ms, and the drop (R200). -/
theorem mainView_raindrop (s : State) :
    mainView (perform .raindrop raindropMoves s) = afterDrop (afterDelay 100 (afterRender 0x00 (atRest (mainView s)))) :=
  mainView_frame_then atRest_dropMoves .raindrop (.const 0x00) 100 s

/-- Settles O34: the dark frame and its wait draw nothing, so the drop takes the draw that was next at the start. -/
theorem raindropLightsTheDrawnLed : Obligations.RaindropLightsTheDrawnLed := by
  intro s
  have hsource : (afterDelay 100 (afterRender 0x00 (atRest (mainView s)))).takeIndex.env = (mainView s.takeIndex).env := by
    rw [mainView_takeIndex]; exact takeIndex_env_congr rfl
  refine ⟨_, rfl, ?_⟩
  rw [mainView_raindrop, afterDrop, hsource, oneHot_eq]
  rfl

/-! ## The trials the random source decides -/

/-- The trial the source answers next: the coin, and the index it answers behind a coin 1 (R201, D21). -/
def State.nextTrial (s : State) : Option BitIndex := if s.nextCoin = 1 then some s.takeCoin.nextIndex else none

/-- A state with the random source of `e`: its queue and its counter. -/
def State.withSource (e : Env) (s : State) : State := { s with env := { s.env with rnd := e.rnd, rndCount := e.rndCount } }

theorem atRest_withSource (e : Env) (s : State) : atRest (s.withSource e) = (atRest s).withSource e := rfl

theorem withSource_takeCoin (s : State) : s.withSource s.takeCoin.env = { s with env := s.takeCoin.env } := by
  rw [takeCoin_env]; rfl

theorem withSource_takeCoin_takeIndex (s : State) :
    s.withSource s.takeCoin.takeIndex.env = { s with env := s.takeCoin.takeIndex.env } := by
  rw [takeIndex_env, takeCoin_env]; rfl

theorem trialMoves_env_tails {s : State} (h : s.nextCoin ≠ 1) : (doMoves trialMoves s).env = s.takeCoin.env :=
  (congrArg State.env (trial_tails s h).1 :)

theorem trialMoves_env_heads {s : State} (h : s.nextCoin = 1) : (doMoves trialMoves s).env = s.takeCoin.takeIndex.env :=
  (congrArg State.env (trial_heads s h).1 :)

/-- One trial, at rest: its draws in the trace, and the source moved on. -/
theorem atRest_trialMoves (s : State) :
    atRest (doMoves trialMoves s) =
      afterEvents (trialEvents [s.nextTrial]) ((atRest s).withSource (doMoves trialMoves s).env) := by
  by_cases h : s.nextCoin = 1
  · rw [State.nextTrial, if_pos h, trialMoves_env_heads h, ← atRest_withSource, withSource_takeCoin_takeIndex]
    exact (trial_heads s h).1
  · rw [State.nextTrial, if_neg h, trialMoves_env_tails h, ← atRest_withSource, withSource_takeCoin]
    exact (trial_tails s h).1

/-- One trial ORs its bit, if any, into the pattern. -/
theorem trialMoves_pattern (s : State) : (doMoves trialMoves s).loc.p = s.loc.p ||| trialPattern [s.nextTrial] := by
  by_cases h : s.nextCoin = 1
  · rw [(trial_heads s h).2, State.nextTrial, if_pos h]
  · rw [(trial_tails s h).2, State.nextTrial, if_neg h]

/-- Where the queue begins with a trial's draws, that is the trial made, and they are consumed (R100, R205). -/
theorem trialMoves_of_supplied {s : State} {t : Option BitIndex} {rest : List Draw}
    (h : s.env.rnd = trialDraws [t] ++ rest) :
    s.nextTrial = t ∧ (doMoves trialMoves s).env = { s.env with rnd := rest } := by
  cases t with
  | none =>
    have hcoin : s.nextCoin ≠ 1 := by rw [nextCoin_of_supplied h]; decide
    exact ⟨if_neg hcoin, by rw [trialMoves_env_tails hcoin, takeCoin_of_supplied h]; rfl⟩
  | some b =>
    have hcoin : s.nextCoin = 1 := nextCoin_of_supplied h
    have hqueue : s.takeCoin.env.rnd = .index b :: rest := by rw [takeCoin_of_supplied h]; rfl
    refine ⟨?_, ?_⟩
    · rw [State.nextTrial, if_pos hcoin, nextIndex_of_supplied hqueue]
    · rw [trialMoves_env_heads hcoin, takeIndex_of_supplied hqueue, takeCoin_of_supplied h]

/-! ## A number of trials, one after another -/

/-- The moves of `n` trials. -/
def trialsMoves (n : Nat) : List Move := (List.replicate n trialMoves).flatten

/-- The trials that the next `n` come out as. -/
def trialsMade : Nat → State → List (Option BitIndex)
  | 0, _ => []
  | n + 1, s => s.nextTrial :: trialsMade n (doMoves trialMoves s)

theorem doMoves_trialsMoves_succ (n : Nat) (s : State) :
    doMoves (trialsMoves (n + 1)) s = doMoves (trialsMoves n) (doMoves trialMoves s) := by
  rw [trialsMoves, List.replicate_succ, List.flatten_cons, doMoves_append]; rfl

theorem trialsMade_length : ∀ (n : Nat) (s : State), (trialsMade n s).length = n
  | 0, _ => rfl
  | n + 1, s => by rw [trialsMade, List.length_cons, trialsMade_length n]

/-- The trials, at rest: their draws in the trace, in order, and the source moved on (R201). -/
theorem atRest_trialsMoves : ∀ (n : Nat) (s : State),
    atRest (doMoves (trialsMoves n) s) =
      afterEvents (trialEvents (trialsMade n s)) ((atRest s).withSource (doMoves (trialsMoves n) s).env)
  | 0, _ => rfl
  | n + 1, s => by
    have hevents : trialEvents (trialsMade (n + 1) s) =
        trialEvents [s.nextTrial] ++ trialEvents (trialsMade n (doMoves trialMoves s)) := trialEvents_append [s.nextTrial] _
    rw [doMoves_trialsMoves_succ, atRest_trialsMoves n, atRest_trialMoves, hevents, afterEvents_append]
    rfl

theorem trialsMoves_pattern : ∀ (n : Nat) (s : State),
    (doMoves (trialsMoves n) s).loc.p = s.loc.p ||| trialPattern (trialsMade n s)
  | 0, _ => BitVec.or_zero.symm
  | n + 1, s => by
    rw [doMoves_trialsMoves_succ, trialsMoves_pattern n, trialMoves_pattern, BitVec.or_assoc, ← trialPattern_append]
    rfl

/-- Where the queue begins with the draws of some trials, those are the trials made, and their draws are consumed (R100, R205). -/
theorem trialsMoves_of_supplied {rest : List Draw} : ∀ {trials : List (Option BitIndex)} {s : State},
    s.env.rnd = trialDraws trials ++ rest →
    trialsMade trials.length s = trials ∧
      (doMoves (trialsMoves trials.length) s).env = { s.env with rnd := rest }
  | [], s, h => by
    have hrest : s.env.rnd = rest := h
    exact ⟨rfl, hrest ▸ rfl⟩
  | t :: ts, s, h => by
    have hdraws : s.env.rnd = trialDraws [t] ++ (trialDraws ts ++ rest) := by
      rw [h, ← List.append_assoc, ← trialDraws_append]; rfl
    obtain ⟨hnext, henv⟩ := trialMoves_of_supplied hdraws
    obtain ⟨hmade, hleft⟩ := trialsMoves_of_supplied (trials := ts) (s := doMoves trialMoves s) (by rw [henv])
    refine ⟨?_, ?_⟩
    · rw [List.length_cons, trialsMade, hnext, hmade]
    · rw [List.length_cons, doMoves_trialsMoves_succ, hleft, henv]

/-! ## SPARKLE and FLASH -/

/-- The moves of SPARKLE and FLASH before their end; the two differ in the wait alone (R202, R204). -/
def sparkleLikeMoves (ms : Nat) : List Move := sparkleMoves ++ (renderMoves ++ [.delay ms])

/-- SPARKLE and FLASH are the same operation but for their wait. -/
theorem exec_sparkleLike {i : Instr} {ms : Nat} (h : (i = .sparkle ∧ ms = 100) ∨ (i = .flash ∧ ms = 5)) (s : State) :
    ∃ op, exec i s = .next (perform op (sparkleLikeMoves ms ++ [.finish]) s) := by
  rcases h with ⟨rfl, rfl⟩ | ⟨rfl, rfl⟩
  · exact ⟨.sparkle, rfl⟩
  · exact ⟨.flash, rfl⟩

/-- The frame of the local pattern, and the wait behind it. -/
theorem atRest_renderMoves_delay (ms : Nat) (s : State) :
    atRest (doMoves (renderMoves ++ [.delay ms]) s) = afterDelay ms (afterRender s.loc.p (atRest s)) := by
  rw [doMoves_append, doMoves_renderMoves]; rfl

/-- From an empty pattern, SPARKLE's and FLASH's moves are eight trials, one frame of their bits, and the wait (R201). -/
theorem atRest_sparkleLikeMoves (ms : Nat) {s : State} (hp : s.loc.p = 0) :
    atRest (doMoves (sparkleLikeMoves ms) s) =
      afterDelay ms (afterRender (trialPattern (trialsMade 8 s))
        (afterEvents (trialEvents (trialsMade 8 s)) ((atRest s).withSource (doMoves (trialsMoves 8) s).env))) := by
  have htrials : doMoves sparkleMoves s = doMoves (trialsMoves 8) s := by
    rw [doMoves_sparkleMoves, ← hp]; rfl
  rw [sparkleLikeMoves, doMoves_append, atRest_renderMoves_delay, htrials, trialsMoves_pattern, hp, atRest_trialsMoves]
  exact congrArg (fun p => afterDelay ms (afterRender p _)) BitVec.zero_or

/-- An operation starts from the empty pattern: its local values are new (R21). -/
theorem enter_empty_pattern (op : ModeOp) (ms : List Move) (s : State) : (enter op ms s).loc.p = 0 := rfl

/-- SPARKLE and FLASH on the main flow's part: the trials made from where the operation is entered, their frame, and the wait, the
random source being where the trials have left it (R201, R202, R204). -/
theorem exec_sparkleLike_next {i : Instr} {ms : Nat} (h : (i = .sparkle ∧ ms = 100) ∨ (i = .flash ∧ ms = 5)) (s : State) :
    ∃ t start, exec i s = .next t ∧ start.env = (mainView s).env ∧
      mainView t = atRest (afterDelay ms (afterRender (trialPattern (trialsMade 8 start))
        (afterEvents (trialEvents (trialsMade 8 start))
          ((mainView s).withSource (doMoves (trialsMoves 8) start).env)))) := by
  obtain ⟨op, hexec⟩ := exec_sparkleLike h s
  refine ⟨_, enter op (sparkleLikeMoves ms ++ [.finish]) (mainView s), hexec, rfl, ?_⟩
  rw [perform_finish, atRest_sparkleLikeMoves ms (enter_empty_pattern ..), atRest_enter, atRest_afterDelay,
    atRest_afterRender, atRest_afterEvents, atRest_withSource]

/-- Settles O35: whatever the source draws, it decides eight trials, which the operation makes and shows. -/
theorem sparkleAndFlashOrEightTrials : Obligations.SparkleAndFlashOrEightTrials := by
  intro i ms s hi
  obtain ⟨t, start, hexec, -, hview⟩ := exec_sparkleLike_next hi s
  generalize (doMoves (trialsMoves 8) start).env = source at hview
  have hsource : (mainView s).withSource (mainView t).env = (mainView s).withSource source := by rw [hview]; rfl
  rw [← hsource] at hview
  exact ⟨t, trialsMade 8 start, hexec, trialsMade_length 8 start, hview⟩

/-- Settles O36: where the source supplies eight trials' draws, those are the trials made, and the rest of its queue is left. -/
theorem sparkleAndFlashUseTheSuppliedDraws : Obligations.SparkleAndFlashUseTheSuppliedDraws := by
  intro i ms s trials rest hi hlength hdraws
  obtain ⟨t, start, hexec, hstart, hview⟩ := exec_sparkleLike_next hi s
  have hqueue : start.env.rnd = trialDraws trials ++ rest := by rw [hstart]; exact hdraws
  obtain ⟨hmade, hleft⟩ := trialsMoves_of_supplied hqueue
  rw [hlength] at hmade hleft
  rw [hmade, hleft, hstart] at hview
  exact ⟨t, hexec, hview⟩

end Sys2Proof.Machine

/-! # The handler: what ADVANCE makes of a state, and what the main flow leaves to it -/

namespace Sys2Proof.Machine

/-! ## What ADVANCE answers -/

/-- With HACT = 1 the notification is discarded (R219). -/
theorem exec_advance_of_hact {s : State} (h : s.hact = true) : exec .advance s = .next s :=
  congrArg Host.Outcome.next (if_pos h)

/-- Settles O40: the notification finds the handler running. -/
theorem edgeDuringTheHandlerIsDiscarded : Obligations.EdgeDuringTheHandlerIsDiscarded :=
  fun _ h => exec_advance_of_hact h

/-- With the handler idle ADVANCE is one whole handler run, in which the schedule moves on (R214). -/
theorem exec_advance_of_idle {s t : State} (hidle : s.hseq = .idle) (h : exec .advance s = .next t) :
    ∃ es, t = { (handlerRun s).withEdges es with hseq := .idle } := by
  have hact : s.hact = false := hact_eq_false_iff.2 hidle
  have hstart : takeEdge s = { s with hseq := .firstCheck } := by simp [takeEdge, hact]
  obtain ⟨es, -, hrun⟩ := handlerToEnd_firstCheck s
  exact ⟨es, by rw [exec_advance_eq h, hact, hstart, hrun]; rfl⟩

/-- ADVANCE makes the transition exactly on an accepted notification with both levels 0 (R216). -/
theorem exec_advance_mode {s t : State} (h : exec .advance s = .next t) :
    t.mode = if s.hact = false ∧ s.nextLevel = 0 ∧ s.takeLevel.nextLevel = 0 then nextMode s.mode else s.mode := by
  cases hact : s.hact with
  | true => rw [exec_advance_eq h, if_pos hact, if_neg (by simp)]
  | false =>
    obtain ⟨es, rfl⟩ := exec_advance_of_idle (hact_eq_false_iff.1 hact) h
    simp only [true_and]
    exact handlerRun_mode s

/-- A trace grows by the entries put on the log, oldest first (R13). -/
theorem trace_of_log {s t : State} {es : List Entry} (h : t.log = es ++ s.log) :
    t.trace = s.trace ++ es.reverse.map Entry.ev := by
  rw [State.trace, h, List.reverse_append, List.map_append, State.trace]

/-- A run whose first level is not 0 is that one event (R214). -/
theorem handlerRun_trace_of_released {s : State} (h : s.nextLevel ≠ 0) :
    (handlerRun s).trace = s.trace ++ [.btn s.nextLevel] :=
  trace_of_log (es := [⟨.handler, .btn s.nextLevel⟩]) (by rw [handlerRun, if_neg h]; exact sampleLevel_log s)

/-- A run whose first level is 0 waits and samples a second level (R214). -/
theorem handlerRun_trace_of_pressed {s : State} (h : s.nextLevel = 0) :
    (handlerRun s).trace = s.trace ++ [.btn 0, .delay 50, .btn s.takeLevel.nextLevel] := by
  have hlog : (handlerRun s).log =
      [⟨.handler, .btn s.takeLevel.nextLevel⟩, ⟨.handler, .delay 50⟩, ⟨.handler, .btn 0⟩] ++ s.log := by
    rw [handlerRun, if_pos h, ← h]
    split <;> simp only [confirmEdge_log, sampleLevel_log, handlerEvent_log] <;> rfl
  exact trace_of_log hlog

/-- Settles O37: the levels decide which of R214's three event sequences the run is. -/
theorem advanceDebouncesTheButton : Obligations.AdvanceDebouncesTheButton := by
  intro s hidle
  have hact : s.hact = false := hact_eq_false_iff.2 hidle
  obtain ⟨t, hexec⟩ : ∃ t, exec .advance s = .next t := ⟨_, rfl⟩
  have hmode := exec_advance_mode hexec
  have hview := exec_advance_mainView hexec
  obtain ⟨es, rfl⟩ := exec_advance_of_idle hidle hexec
  refine ⟨_, hexec, rfl, hview, fun h1 => ⟨?_, ?_⟩, fun h1 h2 => ⟨?_, ?_⟩, fun h1 h2 => ⟨?_, ?_⟩⟩
  · rw [hmode, if_neg (by simp [h1])]
  · rw [← h1]
    exact handlerRun_trace_of_released (by rw [h1]; decide)
  · rw [hmode, if_neg (by simp [h2])]
  · rw [← h2]
    exact handlerRun_trace_of_pressed h1
  · rw [hmode, if_pos ⟨hact, h1, h2⟩, nextMode_toNat]
  · exact (handlerRun_trace_of_pressed h1).trans (by rw [h2])

/-! ## The transition -/

/-- The transition has no fixed point among the 256 values of MODE. -/
theorem nextMode_ne (m : ModeIndex) : nextMode m ≠ m := by
  intro h
  have hm : (m.toNat + 1) % 13 = m.toNat := by rw [← nextMode_toNat, h]
  omega

/-- Settles O38: the transition is made exactly on a confirmed edge, and always moves MODE. -/
theorem onlyAConfirmedEdgeChangesMode : Obligations.OnlyAConfirmedEdgeChangesMode := by
  intro s
  obtain ⟨t, hexec⟩ : ∃ t, exec .advance s = .next t := ⟨_, rfl⟩
  have hmode := exec_advance_mode hexec
  refine ⟨t, hexec, ?_⟩
  by_cases hc : s.hact = false ∧ s.nextLevel = 0 ∧ s.takeLevel.nextLevel = 0
  · rw [if_pos hc] at hmode
    rw [hmode]
    exact ⟨iff_of_true (nextMode_ne _) hc, fun _ => nextMode_toNat _⟩
  · rw [if_neg hc] at hmode
    exact ⟨iff_of_false (not_not_intro hmode) hc, fun hne => absurd hmode hne⟩

/-- What a step can be: an operation in flight resumed, a handler run finished, or an operation performed with the schedule
moved on. -/
theorem step_cases {s t : State} (h : step s = .next t) :
    t = resume s ∨ t = handlerToEnd s ∨ ∃ i es, exec i (s.withEdges es) = .next t := by
  unfold step at h
  split at h
  · exact .inl (Host.Outcome.next.inj h).symm
  · split at h
    · exact .inr (.inl (Host.Outcome.next.inj h).symm)
    · split at h
      · exact .inr (.inr ⟨.advance, _, h⟩)
      · exact .inr (.inr ⟨selected s, _, h⟩)

/-- No step leads MODE out of the cycle, whatever state it starts from (R218). -/
theorem step_mode_lt {s t : State} (hs : s.mode.toNat < params.totalModes) (h : step s = .next t) :
    t.mode.toNat < params.totalModes := by
  obtain rfl | rfl | ⟨i, es, hexec⟩ := step_cases h
  · exact (run_modeAdvanced (budget s) s).mode_lt hs
  · exact (runHandler_modeAdvanced s.hseq.left s).mode_lt hs
  · exact exec_mode_lt hexec hs

/-- Settles O41: a confirmed edge makes the transition, which lands in the cycle, and no step leaves it. -/
theorem transitionIsTotalAndLandsInTheCycle : Obligations.TransitionIsTotalAndLandsInTheCycle := by
  refine ⟨fun s hidle h1 h2 => ?_, fun _ _ hs h => step_mode_lt hs h⟩
  obtain ⟨t, hexec⟩ : ∃ t, exec .advance s = .next t := ⟨_, rfl⟩
  have hmode : t.mode = nextMode s.mode := by
    rw [exec_advance_mode hexec, if_pos ⟨hact_eq_false_iff.2 hidle, h1, h2⟩]
  refine ⟨t, hexec, ?_, ?_⟩
  · rw [hmode, nextMode_toNat]
  · rw [hmode]
    exact nextMode_lt _

/-! ## A due EDGE comes first -/

/-- Settles O8: the EDGE due is taken off the schedule and ADVANCE performed. -/
theorem stepTakesADueEdgeFirst : Obligations.StepTakesADueEdgeFirst := by
  intro s es hseq hidle hedges
  have hdue : s.edgeDue = true := edgeDue_iff.2 (by rw [hedges]; rfl)
  have hpop : s.popEdge = s.withEdges es := by rw [State.popEdge, hedges]; rfl
  rw [step_atDispatch hseq hidle, if_pos hdue, hpop]
  rfl

/-- A tick with an EDGE due and the handler idle is the handler's first check (R213, R214). -/
theorem tick_due {s : State} {es : List Nat} (hidle : s.hseq = .idle) (hedges : s.env.edges = 0 :: es) :
    ∃ es', tick s = (handlerMove { s with hseq := .firstCheck }).withEdges es' := by
  obtain ⟨es', -, hd⟩ := deliver_due s es hidle hedges
  have hact : (({ s with hseq := .firstCheck } : State).withEdges es').hact = true := rfl
  refine ⟨countDown es', ?_⟩
  simp only [tick, hd, hact, if_true, handlerMove_withEdges]
  rfl

/-- The first check samples the level, whichever way it goes on (R214). -/
theorem handlerMove_firstCheck_log {s : State} (h : s.hseq = .firstCheck) :
    (handlerMove s).log = ⟨.handler, .btn s.nextLevel⟩ :: s.log := by
  simp only [handlerMove, h]
  split <;> exact sampleLevel_log s

/-- Settles O44: the tick is the handler's first check. -/
theorem dueEdgePreemptsTheMainFlow : Obligations.DueEdgePreemptsTheMainFlow := by
  intro s es hidle hedges
  obtain ⟨es', ht⟩ := tick_due hidle hedges
  rw [ht, mainView_withEdges, mainView_handlerMove, withEdges_log, handlerMove_firstCheck_log rfl]
  exact ⟨rfl, rfl⟩

/-! ## An operation nothing disturbs -/

/-- Being undisturbed is a matter of the handler's part and the schedule. -/
theorem Undisturbed.of_handlerOnly_eq {s t : State} (hs : Undisturbed s) (h : handlerOnly t = handlerOnly s) :
    Undisturbed t := by
  obtain ⟨hedges, hidle⟩ := hs
  exact ⟨(congrArg (fun u : State => u.env.edges) h :).trans hedges, (congrArg State.hseq h :).trans hidle⟩

/-- A tick nothing disturbs is the main flow's move, which leaves the handler's part alone (R217). -/
theorem handlerOnly_tick_of_undisturbed {s : State} (hs : Undisturbed s) : handlerOnly (tick s) = handlerOnly s := by
  obtain ⟨hedges, hidle⟩ := hs
  have hnone : s.env.edges.head? ≠ some 0 := by rw [hedges]; nofun
  have hpassed : s.movePassed = s := by rw [State.movePassed, hedges, countDown, ← hedges]; rfl
  rw [tick_idle s (hact_eq_false_iff.2 hidle) hnone, handlerOnly_movePassed, handlerOnly_mainMove, ← handlerOnly_movePassed,
    hpassed]

theorem handlerOnly_run_of_undisturbed : ∀ (n : Nat) {s : State}, Undisturbed s → handlerOnly (run n s) = handlerOnly s
  | 0, _, _ => rfl
  | n + 1, s, hs => by
    have htick := handlerOnly_tick_of_undisturbed hs
    rw [run]
    split
    · rfl
    · rw [handlerOnly_run_of_undisturbed n (hs.of_handlerOnly_eq htick), htick]

/-- An operation of the main flow that nothing disturbs leaves the handler's part and the empty schedule alone. -/
theorem exec_handlerOnly_of_undisturbed {i : Instr} {s t : State} (hi : i ≠ .advance) (hs : Undisturbed s)
    (h : exec i s = .next t) : handlerOnly t = handlerOnly s := by
  obtain ⟨u, hu, -, ht⟩ := exec_handlerOnly hi h
  rw [ht, runToEnd, handlerOnly_run_of_undisturbed _ (hs.of_handlerOnly_eq hu), hu]

/-- Settles O48: the operation is a run of ticks, none of which is the handler's. -/
theorem undisturbedOperationLeavesTheHandlersPart : Obligations.UndisturbedOperationLeavesTheHandlersPart := by
  intro i s t hi hs h
  have hpart := exec_handlerOnly_of_undisturbed hi hs h
  exact ⟨(handlerOnly_eq_iff.1 hpart).1, hs.of_handlerOnly_eq hpart⟩

/-! ## What the handler reads and writes -/

/-- The entries ADVANCE puts on the log are the handler's, levels and delays (R217). -/
theorem exec_advance_log {s t : State} (h : exec .advance s = .next t) : ∃ es, t.log = es ++ s.log ∧
    ∀ e ∈ es, e.flow = .handler ∧ ((∃ b, e.ev = .btn b) ∨ ∃ ms, e.ev = .delay ms) := by
  cases hact : s.hact with
  | true => exact ⟨[], by rw [exec_advance_eq h, if_pos hact]; rfl, nofun⟩
  | false =>
    obtain ⟨es, rfl⟩ := exec_advance_of_idle (hact_eq_false_iff.1 hact) h
    exact handlerRun_log s

theorem handlerEvent_withEdges (e : Event) (es : List Nat) (s : State) :
    (s.withEdges es).handlerEvent e = (s.handlerEvent e).withEdges es := rfl

theorem confirmEdge_withEdges (es : List Nat) (s : State) :
    confirmEdge (s.withEdges es) = (confirmEdge s).withEdges es := rfl

theorem takeLevel_withEdges (es : List Nat) (s : State) : (s.withEdges es).takeLevel = s.takeLevel.withEdges es := by
  cases hb : s.env.btn <;> simp [State.takeLevel, State.withEdges, hb]

/-- A handler run does not read the schedule. -/
theorem handlerRun_withEdges (es : List Nat) (s : State) : handlerRun (s.withEdges es) = (handlerRun s).withEdges es := by
  simp only [handlerRun, nextLevel_withEdges, takeLevel_withEdges, sampleLevel_withEdges, handlerEvent_withEdges,
    confirmEdge_withEdges]
  split
  · split <;> rfl
  · rfl

/-- What ADVANCE makes of the handler's part does not rest on the schedule: an EDGE due in the run is discarded (R219). -/
theorem exec_advance_handlerView_withEdges {s t u : State} {es : List Nat} (h : exec .advance s = .next t)
    (hu : exec .advance (s.withEdges es) = .next u) : handlerView u = handlerView t := by
  cases hact : s.hact with
  | true =>
    rw [exec_advance_eq h, exec_advance_eq hu, if_pos hact, if_pos ((hact_withEdges es s).trans hact)]
    rfl
  | false =>
    have hidle : s.hseq = .idle := hact_eq_false_iff.1 hact
    obtain ⟨_, rfl⟩ := exec_advance_of_idle hidle h
    obtain ⟨_, rfl⟩ := exec_advance_of_idle (s := s.withEdges es) hidle hu
    rw [handlerRun_withEdges]
    rfl

/-- ADVANCE reads the handler's part alone: the schedule does not matter to it, nor the main flow (O60). -/
theorem exec_advance_handlerView_congr {s s' t t' : State} (hv : handlerView s' = handlerView s)
    (h : exec .advance s = .next t) (h' : exec .advance s' = .next t') : handlerView t' = handlerView t := by
  obtain ⟨u, hu⟩ : ∃ u, exec .advance (s.withEdges s'.env.edges) = .next u := ⟨_, rfl⟩
  have hview : handlerView s' = handlerView (s.withEdges s'.env.edges) := hv
  have hmain := handlerIsIndependentOfTheMainFlow .advance s' _ t' u hview rfl h' hu
  exact hmain.1.trans (exec_advance_handlerView_withEdges h hu)

/-- Settles O39: the entries and the reads are a handler run's, and MODE is in the part an undisturbed operation leaves alone. -/
theorem handlerTouchesOnlyMode : Obligations.HandlerTouchesOnlyMode := by
  refine ⟨fun s => ?_, fun i s t hi hs h => ?_⟩
  · obtain ⟨t, hexec⟩ : ∃ t, exec .advance s = .next t := ⟨_, rfl⟩
    obtain ⟨es, hlog, hes⟩ := exec_advance_log hexec
    exact ⟨t, es, hexec, exec_advance_mainView hexec, hlog, hes,
      fun s' hv => ⟨_, rfl, exec_advance_handlerView_congr hv hexec rfl⟩⟩
  · exact congrArg HandlerView.mode (undisturbedOperationLeavesTheHandlersPart i s t hi hs h).1

end Sys2Proof.Machine

/-! # The first step after reset -/

namespace Sys2Proof.Machine

/-- Where the handler has put nothing on the log, the main flow's events are the whole trace. -/
theorem trace_eq_flowTrace_main {s : State} (h : handlerEntries s.log = []) : s.trace = s.flowTrace .main := by
  have hmain : ∀ e ∈ s.log, decide (e.flow = .main) = true := by
    intro e he
    have hnot := List.filter_eq_nil_iff.1 h e he
    cases hf : e.flow with
    | main => rfl
    | handler => exact absurd (decide_eq_true hf) hnot
  rw [State.flowTrace, List.filter_eq_self.2 hmain, State.trace]

/-- At reset DISPATCH reads MODE 0 and nothing is on the schedule, so the first operation is OFF (R140, R241). -/
theorem step_reset : step State.reset = exec .off State.reset :=
  stepPerformsTheDispatchedOperation State.reset .off rfl rfl nofun rfl

/-- Settles O58: OFF's frame is all the main flow has sent, and with no EDGE on the schedule the handler has sent nothing and
left MODE alone. -/
theorem firstFrameAfterResetIsDark : Obligations.FirstFrameAfterResetIsDark := by
  obtain ⟨t, hoff, hview⟩ := offRendersAllDark State.reset
  have hpart : handlerView t = handlerView State.reset :=
    (undisturbedOperationLeavesTheHandlersPart .off State.reset t nofun ⟨rfl, rfl⟩ hoff).1
  have hnone : handlerEntries t.log = [] := congrArg HandlerView.log hpart
  have hframe : t.flowTrace .main = State.reset.flowTrace .main ++ serialFrame 0x00 :=
    flowTrace_main_of_mainEntries (congrArg State.log hview :)
  exact ⟨t, step_reset.trans hoff, (trace_eq_flowTrace_main hnone).trans hframe, congrArg HandlerView.mode hpart,
    (congrArg State.seq hview :)⟩

end Sys2Proof.Machine
